-- ==== Sys2Proof/Word.lean ====
section
/-! DEFINITION. The words of the machine: bytes (symbols), 32-bit register words, and the sequences
`Bytes` and `Bits` of 00_scope.md rules R8 to R10. -/
namespace Sys2Proof

/-- An unsigned 8-bit value 0 to 255 (R8); a Symbol is one of these (R20). -/
abbrev Byte := BitVec 8

/-- A whole 32-bit register word (R7, R74). -/
abbrev Word := BitVec 32

/-- A sequence of bytes, index 0 first (R10). -/
abbrev Bytes := List Byte

/-- A sequence of bits whose index 0 is the first bit, the one a decoder reads first (R10);
`true` is the bit 1. -/
abbrev Bits := List Bool

end Sys2Proof
end

