-- ==== Sys2Proof/Syntax.lean ====
section
/-! DEFINITION. The commands of the HCE: one constructor per row of spec/opcode_table.json
(30_encoding.md rule R92). No command has an operand (R93). -/
namespace Sys2Proof

/-- The fourteen commands, in the order of their opcodes (R92). -/
inductive Instr where
  /-- NOP, opcode 0x00 (R226). -/
  | nop
  /-- RANK, opcode 0x01: the frequency ranker (R123). -/
  | rank
  /-- BUILD, opcode 0x02: the rank-to-chain tree builder (R133). -/
  | build
  /-- DERIVE, opcode 0x03: the codeword table deriver (R144). -/
  | derive
  /-- PACK, opcode 0x04: the bit packer over the coded bits of IBUF (R155). -/
  | pack
  /-- SER, opcode 0x05: the tree serializer (R167). -/
  | ser
  /-- DESER, opcode 0x06: the tree deserializer (R171). -/
  | deser
  /-- TOBYTES, opcode 0x07: the container assembler (R182). -/
  | tobytes
  /-- FROMBYTES, opcode 0x08: the container parser (R185). -/
  | frombytes
  /-- WALK, opcode 0x09: the tree-guided bitstream walker (R198). -/
  | walk
  /-- ENCODE, opcode 0x0A: the encode data flow (R211). -/
  | encode
  /-- DECODE, opcode 0x0B: the decode data flow (R215). -/
  | decode
  /-- CLEAR, opcode 0x0C: invalidates every derived value (R228). -/
  | clear
  /-- SRESET, opcode 0x0F: the reset input's effect (R227). -/
  | sreset
deriving DecidableEq, Repr

/-- Every command, in opcode order (R92). -/
def Instr.all : List Instr :=
  [.nop, .rank, .build, .derive, .pack, .ser, .deser, .tobytes, .frombytes, .walk, .encode,
   .decode, .clear, .sreset]

end Sys2Proof
end

