-- ==== Sys2Proof/WellFormed.lean ====
section
/-! DEFINITION. The checks on what the host offers. Every term of `Instr` is well formed, since no
command has an operand (30_encoding.md rule R93); what can be ill formed is the word written to CMD
(R90, R94) and a register access (20_memory.md rule R74, 10_state.md rule R41). -/
namespace Sys2Proof

/-- The opcodes that R92 defines; 0x0D, 0x0E and 0x10 to 0xFF are reserved (R94). -/
def definedOpcodes : List Nat :=
  [0x00, 0x01, 0x02, 0x03, 0x04, 0x05, 0x06, 0x07, 0x08, 0x09, 0x0A, 0x0B, 0x0C, 0x0F]

/-- The RSV field, bits 31 to 8, is zero (R90). -/
def CommandWord.rsvZero (w : Word) : Bool := w.toNat / 256 == 0

/-- The OP field, bits 7 to 0, is one of the fourteen opcodes (R92). -/
def CommandWord.opDefined (w : Word) : Bool := definedOpcodes.contains (w.toNat % 256)

/-- A word that R91 accepts as a command. -/
def CommandWord.wellFormed (w : Word) : Bool :=
  CommandWord.rsvZero w && CommandWord.opDefined w

/-- A register access is one whole 32-bit word at a multiple of 4 (R64, R74); `offset` is the byte
offset from HCE_BASE and `size` the number of bytes. -/
def RegisterAccess.wholeWord (offset size : Nat) : Bool := size == 4 && offset % 4 == 0

/-- The registers the map defines: 0 to 14 and 16 to 19 (R32, R41). -/
def RegisterAccess.defined (r : Nat) : Bool := r < 20 && r != 15

/-- A register access that the spec gives a meaning (R41, R74). -/
def RegisterAccess.wellFormed (offset size : Nat) : Bool :=
  RegisterAccess.wholeWord offset size && RegisterAccess.defined (offset / 4)

end Sys2Proof
end

