-- ==== Sys2Proof/Decode.lean ====
section
/-! DEFINITION. Decoding a command word and encoding a command: format C of 30_encoding.md rules R90
to R94. A command is one 32-bit word; there is no byte order (20_memory.md rule R62). -/
namespace Sys2Proof

/-- Why a word is not a command (R91, R94). -/
inductive DecodeReject where
  /-- Bits 31 to 8 are not zero. -/
  | reservedField (rsv : BitVec 24)
  /-- Bits 7 to 0 are none of the fourteen opcodes. -/
  | reservedOpcode (op : BitVec 8)
deriving DecidableEq, Repr

/-- RSV, bits 31 to 8 of a command word (R90). -/
def rsvField (w : Word) : BitVec 24 := w.extractLsb' 8 24

/-- OP, bits 7 to 0 of a command word (R90). -/
def opField (w : Word) : BitVec 8 := w.extractLsb' 0 8

/-- The opcode map of R92, read from an opcode's number. -/
def commandOfOpcode (op : Nat) : Option Instr :=
  match op with
  | 0x00 => some .nop
  | 0x01 => some .rank
  | 0x02 => some .build
  | 0x03 => some .derive
  | 0x04 => some .pack
  | 0x05 => some .ser
  | 0x06 => some .deser
  | 0x07 => some .tobytes
  | 0x08 => some .frombytes
  | 0x09 => some .walk
  | 0x0A => some .encode
  | 0x0B => some .decode
  | 0x0C => some .clear
  | 0x0F => some .sreset
  | _ => none

/-- R91: a word with a non-zero RSV field or a reserved opcode is illegal; otherwise the command
named by its OP field. -/
def decode (w : Word) : Except DecodeReject Instr :=
  if rsvField w ≠ 0 then .error (.reservedField (rsvField w))
  else
    match commandOfOpcode (opField w).toNat with
    | some i => .ok i
    | none => .error (.reservedOpcode (opField w))

/-- The opcode map of R92, read from a command. -/
def opcode (i : Instr) : BitVec 8 :=
  match i with
  | .nop => 0x00
  | .rank => 0x01
  | .build => 0x02
  | .derive => 0x03
  | .pack => 0x04
  | .ser => 0x05
  | .deser => 0x06
  | .tobytes => 0x07
  | .frombytes => 0x08
  | .walk => 0x09
  | .encode => 0x0A
  | .decode => 0x0B
  | .clear => 0x0C
  | .sreset => 0x0F

/-- The word of a command: its opcode zero-extended (R91). -/
def encode (i : Instr) : Word := (opcode i).setWidth 32

/-- The command word that an opcode table row's bits stand for: the low `nbits` bits of `w`, every
bit above them zero. -/
def tableWord (nbits w : Nat) : Word := BitVec.ofNat 32 (w % 2 ^ nbits)

/-- What the decoder reads from an opcode table row's bits; `none` where it refuses. -/
def decodeTableWord (nbits w : Nat) : Option Instr := (decode (tableWord nbits w)).toOption

end Sys2Proof
end

