-- ==== Sys2Proof/Config.lean ====
section
/-! DEFINITION. What an implementation fixes (the OPEN parameters of 00_scope.md rule R7) and the
free values that stand for what the spec leaves unspecified (93_implementation_defined.md U1, U8). -/
namespace Sys2Proof.Config

/-- The OPEN choice behind IBUF_CAP; nothing in Lean knows its value (log 3). -/
opaque ibufChoice : Nat
/-- The OPEN choice behind OBUF_CAP (log 3). -/
opaque obufChoice : Nat
/-- The OPEN choice behind DBUF_CAP (log 3). -/
opaque dbufChoice : Nat
/-- The OPEN choice behind HCE_BASE (log 12). -/
opaque baseChoice : Nat

/-- The largest capacity that R7 and D8 allow, what SEL.INDEX can address: 2^28 - 1. -/
def maxCap : Nat := 2 ^ 28 - 1

/-- TBUF_CAP is fixed: one count byte and 255 symbols (R7, R28, R40). -/
def tbufCap : Nat := 256

/-- IBUF_CAP: any value of the range 2 to 2^28 - 1 (R7, D8). DESIGN CHOICE (log 3). -/
def ibufCap : Nat := ibufChoice % (maxCap - 1) + 2

/-- OBUF_CAP: any value of the range 2 to 2^28 - 1 (R7, D8). DESIGN CHOICE (log 3). -/
def obufCap : Nat := obufChoice % (maxCap - 1) + 2

/-- DBUF_CAP: any value of the range 1 to 2^28 - 1 (R7, D8). DESIGN CHOICE (log 3). -/
def dbufCap : Nat := dbufChoice % maxCap + 1

/-- HCE_BASE, the bus address of register 0: any multiple of 4 (R7, R73). -/
def hceBase : Nat := 4 * baseChoice

/-- FREE VALUE: the byte that an unspecified element of a buffer holds (U1, D26), for the space's
number, the buffer's epoch and the index (log 4). -/
opaque freeByte : (space epoch index : Nat) → Byte

/-- FREE VALUE: the word that the host reads from an element that is not specified or does not
exist (R68, U1, U8), for the number of the access (log 5). -/
opaque freeWord : (access : Nat) → Word

end Sys2Proof.Config
end

