-- ==== Sys2Proof/Machine/State.lean ====
section
/-! DEFINITION. The state of the HCE as plain data (10_state.md, 20_memory.md), the ways a step can
stop, and the state after reset (10_state.md rule R47). -/
namespace Sys2Proof.Machine

/-- A buffer space as sparse data. `cells` lists the SPECIFIED bytes of R61 by index, addresses
strictly rising; an unlisted index holds a free value, the one that `epoch` selects. The epoch is
the model's own: it counts how often the contents became unspecified (log 4). -/
structure Memory where
  cells : List Host.Cell
  epoch : Nat
deriving DecidableEq, Repr

/-- The canonical form: addresses strictly rising. An unlisted address has no value of its own, so
there is no listed entry that a missing one would equal. -/
abbrev Memory.wf (m : Memory) : Prop := m.cells.Pairwise (fun a b => a.1 < b.1)

/-- A buffer of which nothing is specified. -/
def Memory.unspecified : Memory := { cells := [], epoch := 0 }

/-- The eight element spaces of R61. -/
inductive Space where
  | ibuf | obuf | tbuf | dbuf | rank | tsym | cwlen | cwbit
deriving DecidableEq, Repr

/-- The eleven error kinds of 60_exceptions.md rule R241. -/
inductive ErrorKind where
  | emptyInput | insufficientSymbols | malformedTree | malformedContainer | truncatedBitstream
  | unknownSymbol | symbolCountOverflow | bufferOverflow | notReady | illegalCommand
  | duplicateSymbol
deriving DecidableEq, Repr

/-- The `E(info)` of R11 and R12: an error kind and the value for ERRINFO. -/
structure Failure where
  kind : ErrorKind
  info : Word
deriving DecidableEq, Repr

/-- One act of the host (R6). Accesses name a register by its byte offset from HCE_BASE, as the
programs of R95 do, and say how many bytes they carry (R74). -/
inductive HostEvent where
  /-- A register write (R69, R70, R72). -/
  | write (offset size : Nat) (value : Word)
  /-- A register read (R67, R68). -/
  | read (offset size : Nat)
  /-- The reset input asserted between accesses (R270). -/
  | reset
  /-- HostWrite(CMD, value) with the reset input asserted while the command runs (R271). -/
  | resetDuring (value : Word)
deriving DecidableEq, Repr

/-- A fault would stop the machine. The HCE has none: an error is reported in registers and "the
engine never halts, locks up or resets itself on an error" (R243), so this type has no value. -/
inductive Fault where
deriving DecidableEq, Repr

/-- Why the model does not take a step. -/
inductive Refusal where
  /-- Raised by `exec`'s arm of an instruction without a meaning; no arm is one. Safe. -/
  | notModelled (mnemonic : String)
  /-- Raised by a host access to register 15 or to a register number from 20 up (R41, U6: a model
  refuses it). Safe. -/
  | reservedRegister (r : Nat)
  /-- Raised by a register access that is not one aligned 32-bit word (R74, U7: a model refuses
  it). Safe. -/
  | notAWholeWord (offset size : Nat)
deriving DecidableEq, Repr

/-- The whole machine. The comment of a field gives its register number and rule. -/
structure State where
  /-- Register 0, CMD: the last word written (R33). -/
  lastCmd : Word
  /-- Register 1 bit 0, STATUS.DONE (R34). -/
  statusDone : Bool
  /-- Register 1 bit 1, STATUS.ERR (R34). -/
  statusErr : Bool
  /-- Register 2, ERRCODE (R35). -/
  errCode : BitVec 4
  /-- Register 3, STAGE (R37). -/
  stage : BitVec 8
  /-- Register 4, ERRINFO (R36). -/
  errInfo : Word
  /-- Register 5 bit 0, V_RANK (R39). -/
  vRank : Bool
  /-- Register 5 bit 1, V_TREE (R39). -/
  vTree : Bool
  /-- Register 5 bit 2, V_CW (R39). -/
  vCw : Bool
  /-- Register 6, ILEN (R25). -/
  ilen : Word
  /-- Register 7, OLEN (R26). -/
  olen : Word
  /-- Register 8, TLEN (R28). -/
  tlen : BitVec 9
  /-- Register 9, DLEN (R29). -/
  dlen : Word
  /-- Register 10, PAD (R29). -/
  pad : BitVec 3
  /-- Register 11, N (R27). -/
  n : BitVec 9
  /-- Register 12, TN (R30). -/
  tn : BitVec 9
  /-- Register 13, SEL (R38). -/
  sel : Word
  /-- Register 16, IBUF_CAP (R40). -/
  ibufCap : Nat
  /-- Register 17, OBUF_CAP (R40). -/
  obufCap : Nat
  /-- Register 18, DBUF_CAP (R40). -/
  dbufCap : Nat
  /-- Space 0 (R25). -/
  ibuf : Memory
  /-- Space 1 (R26). -/
  obuf : Memory
  /-- Space 2 (R28). -/
  tbuf : Memory
  /-- Space 3 (R29). -/
  dbuf : Memory
  /-- Space 4, the rank order (R27). -/
  rank : Vector Byte 256
  /-- Space 5, the tree's leaves in chain order (R30). -/
  tsym : Vector Byte 256
  /-- Space 6, the codeword length of each symbol (R31). -/
  cwlen : Vector Byte 256
  /-- Space 7, the codeword of each symbol, CWBITS[s][j] being bit j (R31). -/
  cwbits : Vector (BitVec 255) 256
  /-- The MODEL's own: the host's acts still to come, oldest first (log 1). -/
  pending : List HostEvent
  /-- The MODEL's own: the words the host's reads returned, oldest first (log 9). -/
  readData : List Word
  /-- The MODEL's own: how many of the host's acts have been performed (log 5). -/
  accesses : Nat
deriving DecidableEq, Repr

/-- The machine right after reset (R47): every register 0, the capacities their constants, nothing
specified in any buffer. The register files' entries are unspecified there; the model stores 0
(DESIGN CHOICE, log 6). The model's own fields start empty or at 0 (DESIGN CHOICE, log 8). -/
def State.reset : State where
  lastCmd := 0
  statusDone := false
  statusErr := false
  errCode := 0
  stage := 0
  errInfo := 0
  vRank := false
  vTree := false
  vCw := false
  ilen := 0
  olen := 0
  tlen := 0
  dlen := 0
  pad := 0
  n := 0
  tn := 0
  sel := 0
  ibufCap := Config.ibufCap
  obufCap := Config.obufCap
  dbufCap := Config.dbufCap
  ibuf := Memory.unspecified
  obuf := Memory.unspecified
  tbuf := Memory.unspecified
  dbuf := Memory.unspecified
  rank := Vector.replicate 256 0
  tsym := Vector.replicate 256 0
  cwlen := Vector.replicate 256 0
  cwbits := Vector.replicate 256 0
  pending := []
  readData := []
  accesses := 0

end Sys2Proof.Machine
end

