-- ==== Sys2Proof/Machine/Ops.lean ====
section
/-! DEFINITION. The named operations over buffers and register files (00_scope.md rule R11), and the
two ends of a stage: the success exit (60_exceptions.md rule R244) and the error entry (R245). -/
namespace Sys2Proof.Machine

/-! ## Buffers -/

/-- The byte listed at an address. -/
def cellsRead : List Host.Cell → Nat → Option Byte
  | [], _ => none
  | (a, b) :: rest, i => if a = i then some b else cellsRead rest i

/-- The list with one byte written, addresses kept strictly rising. -/
def cellsWrite : List Host.Cell → Nat → Byte → List Host.Cell
  | [], i, v => [(i, v)]
  | (a, b) :: rest, i, v =>
    if i < a then (i, v) :: (a, b) :: rest
    else if i = a then (i, v) :: rest
    else (a, b) :: cellsWrite rest i v

/-- The byte at an index when the rules specify it (R61), `none` when they do not. -/
def Memory.read? (m : Memory) (i : Nat) : Option Byte := cellsRead m.cells i

/-- One byte stored. -/
def Memory.write (m : Memory) (i : Nat) (v : Byte) : Memory :=
  { m with cells := cellsWrite m.cells i v }

/-- MemWrite(S:base, |bytes|, bytes) of R11: the bytes at indices base, base + 1, ... -/
def Memory.writeBytes (m : Memory) (base : Nat) : Bytes → Memory
  | [] => m
  | b :: rest => (m.write base b).writeBytes (base + 1) rest

/-- Every byte becomes unspecified (R61, R246, R228): nothing is listed, and a new epoch selects
new free values (log 4). -/
def Memory.forget (m : Memory) : Memory := { cells := [], epoch := m.epoch + 1 }

/-- The SPACE number of R61. -/
def Space.number : Space → Nat
  | .ibuf => 0
  | .obuf => 1
  | .tbuf => 2
  | .dbuf => 3
  | .rank => 4
  | .tsym => 5
  | .cwlen => 6
  | .cwbit => 7

/-- The space a SPACE number names; 8 to 15 are reserved (R61). -/
def Space.ofNumber (k : Nat) : Option Space :=
  match k with
  | 0 => some .ibuf
  | 1 => some .obuf
  | 2 => some .tbuf
  | 3 => some .dbuf
  | 4 => some .rank
  | 5 => some .tsym
  | 6 => some .cwlen
  | 7 => some .cwbit
  | _ => none

/-- The byte a command reads: the specified one, or the free value of an unspecified one (R75, H1 of
R276, U1; log 4). -/
def Memory.byte (space : Space) (m : Memory) (i : Nat) : Byte :=
  (m.read? i).getD (Config.freeByte space.number m.epoch i)

/-- MemRead(S:base, count) of R11. -/
def memRead (space : Space) (m : Memory) (base count : Nat) : Bytes :=
  (List.range count).map (fun k => m.byte space (base + k))

/-! ## Register files -/

/-- `for i: F[i] <- r[i]`: the entries from `r.length` on stay as they were. -/
def loadFile (old : Vector Byte 256) (r : Bytes) : Vector Byte 256 :=
  ⟨((r ++ old.toList.drop r.length).take 256).toArray, by simp; omega⟩

/-- `F[0..count)`. -/
def filePart (f : Vector Byte 256) (count : Nat) : Bytes := f.toList.take count

/-- A symbol is a legal index of a file of 256 entries. -/
theorem symbol_lt (sym : Byte) : sym.toNat < 256 := sym.isLt

/-- The entry of a symbol in a file of 256 entries. -/
def fileAt {α : Type} (f : Vector α 256) (sym : Byte) : α := f[sym.toNat]'(symbol_lt sym)

/-- The file with the entry of one symbol replaced. -/
def fileSet {α : Type} (f : Vector α 256) (sym : Byte) (v : α) : Vector α 256 :=
  f.set sym.toNat v (symbol_lt sym)

/-! ## The two ends of a stage -/

/-- How a stage ended: through the success exit or through the error entry (R210). -/
inductive StageExit where
  | success (s : State)
  | error (s : State)
deriving DecidableEq, Repr

/-- The state in which a stage ended. -/
def StageExit.state : StageExit → State
  | .success s => s
  | .error s => s

/-- Whether a stage ended through the success exit. -/
def StageExit.succeeded : StageExit → Bool
  | .success _ => true
  | .error _ => false

/-- The next stage of a composite, which runs only if this one succeeded (R210). -/
def StageExit.andThen (x : StageExit) (next : State → StageExit) : StageExit :=
  match x with
  | .success s => next s
  | .error s => .error s

/-- A command's outcome: both ends complete the CMD write (R244, R245). -/
def StageExit.outcome (x : StageExit) : Host.Outcome State Fault Refusal := .next x.state

/-- ERRCODE of each kind (R241). -/
def ErrorKind.code : ErrorKind → BitVec 4
  | .emptyInput => 1
  | .insufficientSymbols => 2
  | .malformedTree => 3
  | .malformedContainer => 4
  | .truncatedBitstream => 5
  | .unknownSymbol => 6
  | .symbolCountOverflow => 7
  | .bufferOverflow => 8
  | .notReady => 9
  | .illegalCommand => 10
  | .duplicateSymbol => 11

/-- What the error entry does to the registers (R245): "Nothing else is saved or changed". -/
def State.reportError (s : State) (e : ErrorKind) (info : Word) : State :=
  { s with statusDone := false, statusErr := true, errCode := e.code, errInfo := info }

/-- What the success exit does to the registers (R244). -/
def State.reportSuccess (s : State) : State :=
  { s with statusDone := true, statusErr := false, errCode := 0, errInfo := 0 }

/-- TAKING AN EXCEPTION: `raise E(info)`, the error entry of R245. There is no handler and nothing to
return from (R249): control goes back to the host. -/
def raise (e : ErrorKind) (info : Word) (s : State) : StageExit := .error (s.reportError e info)

/-- A pure function's failure turned into `raise E(info)` (R12). -/
def raiseFailure (f : Failure) (s : State) : StageExit := raise f.kind f.info s

/-- The success exit of R244, the counterpart of the error entry. -/
def succeed (s : State) : StageExit := .success s.reportSuccess

/-- A stage's first action: `STAGE <- its own opcode` (R37). -/
def State.startStage (s : State) (op : BitVec 8) : State := { s with stage := op }

/-! ## Reset -/

/-- The effect of the reset input and of SRESET (R47, R270, R227): every register at its reset value,
every buffer unspecified. The register files' entries are unspecified too and are left as they were
(log 7); the capacities are constants (R40); the host's own fields are not the engine's (log 8). -/
def resetState (s : State) : State :=
  { s with
    lastCmd := 0, statusDone := false, statusErr := false, errCode := 0, stage := 0, errInfo := 0
    vRank := false, vTree := false, vCw := false
    ilen := 0, olen := 0, tlen := 0, dlen := 0, pad := 0, n := 0, tn := 0, sel := 0
    ibuf := s.ibuf.forget, obuf := s.obuf.forget, tbuf := s.tbuf.forget, dbuf := s.dbuf.forget }

end Sys2Proof.Machine
end

