-- ==== Sys2Proof/Machine/Flags.lean ====
section
/-! DEFINITION. The flags: the three VALID bits with their invalidation cascade (10_state.md rules R39,
R45) and the register views of STATUS and VALID (R32). -/
namespace Sys2Proof.Machine

/-- InvalidateCW of R45. -/
def State.invalidateCw (s : State) : State := { s with vCw := false }

/-- InvalidateTree of R45. -/
def State.invalidateTree (s : State) : State :=
  State.invalidateCw { s with vTree := false, tn := 0 }

/-- InvalidateRank of R45. -/
def State.invalidateRank (s : State) : State :=
  State.invalidateTree { s with vRank := false, n := 0 }

/-- STATUS as the host reads it: DONE in bit 0, ERR in bit 1 (R32, R34). -/
def statusWord (s : State) : Word :=
  BitVec.ofNat 32 (s.statusDone.toNat + 2 * s.statusErr.toNat)

/-- VALID as the host reads it: V_RANK, V_TREE, V_CW in bits 0, 1, 2 (R32, R39). -/
def validWord (s : State) : Word :=
  BitVec.ofNat 32 (s.vRank.toNat + 2 * s.vTree.toNat + 4 * s.vCw.toNat)

end Sys2Proof.Machine
end

