-- ==== Sys2Proof/Machine/Operands.lean ====
section
/-! DEFINITION. The implicit operands of the commands (30_encoding.md rule R93): the named pieces of
state that a command reads (20_memory.md rule R79). -/
namespace Sys2Proof.Machine

/-- The input buffer of a command, MemRead(IBUF:0, ILEN) (R25). -/
def inputBytes (s : State) : Bytes := memRead .ibuf s.ibuf 0 s.ilen.toNat

/-- The container's `serializedTree` field, MemRead(TBUF:0, TLEN) (R28). -/
def treeBytes (s : State) : Bytes := memRead .tbuf s.tbuf 0 s.tlen.toNat

/-- The container's `packedData` field, MemRead(DBUF:0, DLEN) (R29). -/
def packedBytes (s : State) : Bytes := memRead .dbuf s.dbuf 0 s.dlen.toNat

/-- The result, MemRead(OBUF:0, OLEN) (R26). No command reads it. -/
def outputBytes (s : State) : Bytes := memRead .obuf s.obuf 0 s.olen.toNat

/-- The rank order RANK[0..N) (R27). -/
def rankList (s : State) : Bytes := filePart s.rank s.n.toNat

/-- The tree's leaves in chain order, TSYM[0..TN) (R30). -/
def leafList (s : State) : Bytes := filePart s.tsym s.tn.toNat

/-- `CW[sym]` of R31 where the table has the symbol, `none` where CWLEN[sym] = 0. -/
def codeword (s : State) (sym : Byte) : Option Bits :=
  if fileAt s.cwlen sym = 0 then none
  else some ((List.range (fileAt s.cwlen sym).toNat).map (fileAt s.cwbits sym).getLsbD)

/-- The PAD register zero-extended to a byte (R182). -/
def padByte (s : State) : Byte := s.pad.setWidth 8

end Sys2Proof.Machine
end

