-- ==== Sys2Proof/Machine/Container.lean ====
section
/-! DEFINITION. ContainerCodec, the commands TOBYTES and FROMBYTES (45_container_codec.md). -/
namespace Sys2Proof.Machine

/-- A Container (10_state.md R23). -/
structure Container where
  padding : Byte
  serializedTree : Bytes
  packedData : Bytes
deriving DecidableEq, Repr

/-- `to_bytes` of R180: no check of its arguments. -/
def toBytes (c : Container) : Bytes := c.padding :: (c.serializedTree ++ c.packedData)

/-- `from_bytes(buf)` of R183, with the sub-causes of R184. -/
def fromBytes (buf : Bytes) : Except Failure Container :=
  match buf with
  | p :: sc :: rest =>
    if buf.length < 2 + sc.toNat then .error ⟨.malformedContainer, 2⟩
    else if 7 < p.toNat then .error ⟨.malformedContainer, 3⟩
    else
      .ok
        { padding := p
          serializedTree := sc :: rest.take sc.toNat
          packedData := rest.drop sc.toNat }
  | _ => .error ⟨.malformedContainer, 1⟩

/-! ## TOBYTES -/

/-- The container that TOBYTES assembles: PAD, TBUF[0..TLEN) and DBUF[0..DLEN) (R182). -/
def heldContainer (s : State) : Container :=
  { padding := padByte s, serializedTree := treeBytes s, packedData := packedBytes s }

/-- TOBYTES' first lines: STAGE, then OLEN at 0 (R182). -/
def tobytesStart (s : State) : State := { s.startStage 0x07 with olen := 0 }

/-- The stage TOBYTES (R182); a failure leaves every byte of OBUF unspecified (R61). -/
def tobytesStage (s : State) : StageExit :=
  if s.obufCap < 1 + s.tlen.toNat + s.dlen.toNat then
    raise .bufferOverflow 0 { tobytesStart s with obuf := s.obuf.forget }
  else
    succeed
      { tobytesStart s with
        obuf := s.obuf.writeBytes 0 (toBytes (heldContainer s))
        olen := BitVec.ofNat 32 (1 + s.tlen.toNat + s.dlen.toNat) }

/-- TOBYTES (R182). -/
def execTobytes (s : State) : Host.Outcome State Fault Refusal := (tobytesStage s).outcome

/-! ## FROMBYTES -/

/-- FROMBYTES' first lines: STAGE, then PAD, TLEN and DLEN at 0 (R185). -/
def frombytesStart (s : State) : State :=
  { s.startStage 0x08 with pad := 0, tlen := 0, dlen := 0 }

/-- A failing FROMBYTES leaves every byte of TBUF and DBUF unspecified (R185, R61). -/
def frombytesFail (f : Failure) (s : State) : StageExit :=
  raiseFailure f { frombytesStart s with tbuf := s.tbuf.forget, dbuf := s.dbuf.forget }

/-- The stage FROMBYTES (R185). -/
def frombytesStage (s : State) : StageExit :=
  match fromBytes (inputBytes s) with
  | .error f => frombytesFail f s
  | .ok c =>
    if s.dbufCap < c.packedData.length then frombytesFail ⟨.bufferOverflow, 0⟩ s
    else
      succeed
        { frombytesStart s with
          tbuf := s.tbuf.writeBytes 0 c.serializedTree
          dbuf := s.dbuf.writeBytes 0 c.packedData
          pad := c.padding.setWidth 3
          tlen := BitVec.ofNat 9 c.serializedTree.length
          dlen := BitVec.ofNat 32 c.packedData.length }

/-- FROMBYTES (R185). -/
def execFrombytes (s : State) : Host.Outcome State Fault Refusal := (frombytesStage s).outcome

end Sys2Proof.Machine
end

