-- ==== Sys2Proof/Machine/Rank.lean ====
section
/-! DEFINITION. FrequencyRanker, the command RANK (40_frequency_ranker.md). -/
namespace Sys2Proof.Machine

/-- `count(buf, s)` of R120. -/
def occurrences (buf : Bytes) (sym : Byte) : Nat := buf.count sym

/-- The 256 symbols in ascending order (R20). -/
def symbols : Bytes := (List.range 256).map (BitVec.ofNat 8)

/-- The order of R121: descending count, then ascending symbol value, compared unsigned (D1). -/
def rankBefore (buf : Bytes) (a b : Byte) : Bool :=
  occurrences buf b < occurrences buf a ||
    (occurrences buf a == occurrences buf b && a.toNat < b.toNat)

/-- A symbol put in its place among ranked ones. -/
def rankInsert (buf : Bytes) (sym : Byte) : Bytes → Bytes
  | [] => [sym]
  | t :: rest => if rankBefore buf sym t then sym :: t :: rest else t :: rankInsert buf sym rest

/-- Symbols sorted by the order of R121. -/
def rankSort (buf : Bytes) : Bytes → Bytes
  | [] => []
  | sym :: rest => rankInsert buf sym (rankSort buf rest)

/-- `rank_order(buf)` of R121: the distinct symbols of the buffer in rank order. -/
def rankOrder (buf : Bytes) : Except Failure Bytes :=
  if buf.isEmpty then .error ⟨.emptyInput, 0⟩
  else .ok (rankSort buf (symbols.filter (fun sym => 0 < occurrences buf sym)))

/-- RANK's first lines: STAGE and InvalidateRank (R123). -/
def rankStart (s : State) : State := State.invalidateRank (s.startStage 0x01)

/-- The stage RANK (R123). `rank_order` fails exactly when ILEN = 0. -/
def rankStage (s : State) : StageExit :=
  match rankOrder (inputBytes s) with
  | .error f => raiseFailure f (rankStart s)
  | .ok r =>
    succeed
      { rankStart s with
        rank := loadFile s.rank r, n := BitVec.ofNat 9 r.length, vRank := true }

/-- RANK (R123). -/
def execRank (s : State) : Host.Outcome State Fault Refusal := (rankStage s).outcome

end Sys2Proof.Machine
end

