-- ==== Sys2Proof/Machine/Tree.lean ====
section
/-! DEFINITION. CodeTreeBuilder, the command BUILD (41_tree_builder.md), and the abstract trees of
10_state.md rule R21. -/
namespace Sys2Proof.Machine

mutual
  /-- A CodeNode (R21): a leaf with its symbol, or a branch to a nested tree. -/
  inductive CodeNode where
    | leaf (sym : Byte)
    | branch (sub : CodeTree)
  deriving DecidableEq, Repr
  /-- A CodeTree (R21): each level holds a left leaf and a right node. -/
  inductive CodeTree where
    | level (left : Byte) (right : CodeNode)
  deriving DecidableEq, Repr
end

/-- The chain of R131 over the symbols `s0 :: s1 :: rest`. -/
def chainTree (s0 s1 : Byte) : Bytes → CodeTree
  | [] => .level s0 (.leaf s1)
  | s2 :: rest => .level s0 (.branch (chainTree s1 s2 rest))

/-- `build_tree(r)` of R130 and R131. -/
def buildTree (r : Bytes) : Except Failure CodeTree :=
  match r with
  | s0 :: s1 :: rest => .ok (chainTree s0 s1 rest)
  | _ => .error ⟨.insufficientSymbols, BitVec.ofNat 32 r.length⟩

/-- `leaves(t)` of R21: left of each level in order, then right of the last level. -/
def leaves : CodeTree → Bytes
  | .level left (.leaf sym) => [left, sym]
  | .level left (.branch sub) => left :: leaves sub

/-- BUILD's first lines: STAGE and InvalidateTree (R133). -/
def buildStart (s : State) : State := State.invalidateTree (s.startStage 0x02)

/-- The stage BUILD (R133): copying the rank order is the whole construction, since the chain's shape
is implicit in the order of TSYM (R30). -/
def buildStage (s : State) : StageExit :=
  if s.vRank = false then raise .notReady 0 (buildStart s)
  else if s.n.toNat < 2 then raise .insufficientSymbols (s.n.setWidth 32) (buildStart s)
  else
    succeed { buildStart s with tsym := loadFile s.tsym (rankList s), tn := s.n, vTree := true }

/-- BUILD (R133). -/
def execBuild (s : State) : Host.Outcome State Fault Refusal := (buildStage s).outcome

end Sys2Proof.Machine
end

