-- ==== Sys2Proof/Machine/Serial.lean ====
section
/-! DEFINITION. TreeSerializer and TreeDeserializer, the commands SER and DESER
(44_tree_serializer.md). -/
namespace Sys2Proof.Machine

/-! ## The functions on trees -/

/-- `serialize_tree(t)` of R165: the count byte and the leaves; 256 leaves do not fit it (R166). -/
def serializeTree (t : CodeTree) : Except Failure Bytes :=
  if 255 < (leaves t).length then
    .error ⟨.symbolCountOverflow, BitVec.ofNat 32 (leaves t).length⟩
  else .ok (BitVec.ofNat 8 (leaves t).length :: leaves t)

/-- `deserialize_tree(bytes)` of R168: bytes after the declared symbols are not read. -/
def deserializeTree (bytes : Bytes) : Except Failure CodeTree :=
  match bytes with
  | [] => .error ⟨.malformedTree, 0⟩
  | c :: rest =>
    if bytes.length < 1 + c.toNat then .error ⟨.malformedTree, BitVec.ofNat 32 bytes.length⟩
    else buildTree (rest.take c.toNat)

/-! ## The commands -/

/-- SER's first lines: STAGE, then TLEN at 0 (R167). -/
def serStart (s : State) : State := { s.startStage 0x05 with tlen := 0 }

/-- A failing SER leaves every byte of TBUF unspecified (R167, R61). -/
def serFail (e : ErrorKind) (info : Word) (s : State) : StageExit :=
  raise e info { serStart s with tbuf := s.tbuf.forget }

/-- The stage SER (R167). -/
def serStage (s : State) : StageExit :=
  if s.vTree = false then serFail .notReady 0 s
  else if 255 < s.tn.toNat then serFail .symbolCountOverflow (s.tn.setWidth 32) s
  else
    succeed
      { serStart s with
        tbuf := (s.tbuf.writeBytes 0 [s.tn.setWidth 8]).writeBytes 1 (leafList s)
        tlen := 1 + s.tn }

/-- SER (R167). -/
def execSer (s : State) : Host.Outcome State Fault Refusal := (serStage s).outcome

/-- DESER's first lines: STAGE and InvalidateRank (R171). -/
def deserStart (s : State) : State := State.invalidateRank (s.startStage 0x06)

/-- DESER once the rank order is loaded: the symbols `r` handed to the builder (R171). -/
def deserRanked (s : State) (r : Bytes) : State :=
  { deserStart s with rank := loadFile s.rank r, n := BitVec.ofNat 9 r.length, vRank := true }

/-- The stage DESER (R171). -/
def deserStage (s : State) : StageExit :=
  match treeBytes s with
  | [] => raise .malformedTree 0 (deserStart s)
  | c :: rest =>
    if s.tlen.toNat < 1 + c.toNat then raise .malformedTree (s.tlen.setWidth 32) (deserStart s)
    else if c.toNat < 2 then
      raise .insufficientSymbols (c.setWidth 32) (deserRanked s (rest.take c.toNat))
    else
      succeed
        { deserRanked s (rest.take c.toNat) with
          tsym := loadFile s.tsym (rest.take c.toNat), tn := c.setWidth 9, vTree := true }

/-- DESER (R171). -/
def execDeser (s : State) : Host.Outcome State Fault Refusal := (deserStage s).outcome

end Sys2Proof.Machine
end

