-- ==== Sys2Proof/Machine/System.lean ====
section
/-! DEFINITION. The system commands NOP, SRESET and the stage CLEAR (48_system.md). -/
namespace Sys2Proof.Machine

/-- What CLEAR leaves before its success exit (R228): every derived value invalidated, the bytes of
TBUF, DBUF and OBUF unspecified; IBUF, ILEN and SEL as they were. -/
def clearedState (s : State) : State :=
  { State.invalidateRank (s.startStage 0x0C) with
    tlen := 0, dlen := 0, pad := 0, olen := 0
    tbuf := s.tbuf.forget, dbuf := s.dbuf.forget, obuf := s.obuf.forget }

/-- The stage CLEAR (R228). -/
def clearStage (s : State) : StageExit := succeed (clearedState s)

/-- NOP (R226): nothing; the previous report stays. -/
def execNop (s : State) : Host.Outcome State Fault Refusal := .next s

/-- CLEAR (R228). -/
def execClear (s : State) : Host.Outcome State Fault Refusal := (clearStage s).outcome

/-- SRESET (R227): exactly the reset input's effect, LASTCMD included; not through the success
exit. -/
def execSreset (s : State) : Host.Outcome State Fault Refusal := .next (resetState s)

end Sys2Proof.Machine
end

