-- ==== Sys2Proof/Machine/Table.lean ====
section
/-! DEFINITION. CodeTableDeriver, the command DERIVE (42_table_deriver.md). -/
namespace Sys2Proof.Machine

/-! ## The function on trees -/

/-- A CodeTable (R22) under construction: the symbols assigned so far with their codewords. -/
abbrev CodeTable := List (Byte × Bits)

/-- `T(s)`, `none` for a symbol that is absent (R22). -/
def CodeTable.codeOf (t : CodeTable) (sym : Byte) : Option Bits := t.lookup sym

/-- `assign(T, s, w)` of R141: fails when the symbol is present already (R145). -/
def CodeTable.assign (t : CodeTable) (sym : Byte) (w : Bits) : Except Failure CodeTable :=
  match t.codeOf sym with
  | none => .ok (t ++ [(sym, w)])
  | some _ => .error ⟨.duplicateSymbol, sym.setWidth 32⟩

/-- The loop of R141 from one level on, with the accumulated bits `acc`. -/
def deriveFrom (t : CodeTable) (acc : Bits) : CodeTree → Except Failure CodeTable
  | .level left (.leaf sym) =>
    match t.assign left (acc ++ [false]) with
    | .error f => .error f
    | .ok t' => t'.assign sym (acc ++ [true])
  | .level left (.branch sub) =>
    match t.assign left (acc ++ [false]) with
    | .error f => .error f
    | .ok t' => deriveFrom t' (acc ++ [true]) sub

/-- `derive_table(t)` of R141. -/
def deriveTable (t : CodeTree) : Except Failure CodeTable := deriveFrom [] [] t

/-! ## The command -/

/-- The codeword of the leaf at place `i` of a chain of `count` leaves (30_encoding.md R100): i ones
and a zero, but count - 1 ones for the last leaf. -/
def chainCode (count i : Nat) : Bits :=
  if i + 1 < count then List.replicate i true ++ [false] else List.replicate (count - 1) true

/-- The duplicate check of R144 and R145: the entry that, first in order, repeats an earlier one. -/
def firstRepeat (seen : Bytes) : Bytes → Option Byte
  | [] => none
  | sym :: rest => if seen.contains sym then some sym else firstRepeat (sym :: seen) rest

/-- The leaves with their codewords, in chain order (R144). -/
def chainEntries (leafSyms : Bytes) : List (Byte × Bits) :=
  leafSyms.zipIdx.map (fun e => (e.1, chainCode leafSyms.length e.2))

/-- A bit sequence as a number, its first bit the least significant. -/
def bitsValue : Bits → Nat
  | [] => 0
  | b :: rest => b.toNat + 2 * bitsValue rest

/-- `CWBITS[s][j] <- w[j]` for j < |w|; the bits beyond stay as they were, which R31 leaves
unspecified (log 7). -/
def storeBits (old : BitVec 255) (w : Bits) : BitVec 255 :=
  (old >>> w.length <<< w.length) ||| BitVec.ofNat 255 (bitsValue w)

/-- CWLEN after DERIVE: 0 for every symbol, then the length of each leaf's codeword (R144). -/
def derivedLengths (entries : List (Byte × Bits)) : Vector Byte 256 :=
  entries.foldl (fun f e => fileSet f e.1 (BitVec.ofNat 8 e.2.length)) (Vector.replicate 256 0)

/-- CWBITS after DERIVE (R144). -/
def derivedBits (old : Vector (BitVec 255) 256) (entries : List (Byte × Bits)) :
    Vector (BitVec 255) 256 :=
  entries.foldl (fun f e => fileSet f e.1 (storeBits (fileAt f e.1) e.2)) old

/-- DERIVE's first lines: STAGE and InvalidateCW (R144). -/
def deriveStart (s : State) : State := State.invalidateCw (s.startStage 0x03)

/-- The stage DERIVE (R144). -/
def deriveStage (s : State) : StageExit :=
  if s.vTree = false then raise .notReady 0 (deriveStart s)
  else
    match firstRepeat [] (leafList s) with
    | some sym => raise .duplicateSymbol (sym.setWidth 32) (deriveStart s)
    | none =>
      succeed
        { deriveStart s with
          cwlen := derivedLengths (chainEntries (leafList s))
          cwbits := derivedBits s.cwbits (chainEntries (leafList s))
          vCw := true }

/-- DERIVE (R144). -/
def execDerive (s : State) : Host.Outcome State Fault Refusal := (deriveStage s).outcome

end Sys2Proof.Machine
end

