-- ==== Sys2Proof/Machine/Pack.lean ====
section
/-! DEFINITION. BitPacker and unpacker, the command PACK (43_bit_packer.md). -/
namespace Sys2Proof.Machine

/-- `ceil8(n)` of R8: the bytes that n bits take. -/
def ceil8 (n : Nat) : Nat := (n + 7) / 8

/-- The padding of R150 for a sequence of `count` bits. -/
def paddingOf (count : Nat) : Nat := (8 - count % 8) % 8

/-- One byte from eight bits, the first in bit 7 (R63, R150). -/
def packByte (b0 b1 b2 b3 b4 b5 b6 b7 : Bool) : Byte :=
  BitVec.ofNat 8
    (b0.toNat * 128 + b1.toNat * 64 + b2.toNat * 32 + b3.toNat * 16 + b4.toNat * 8 +
      b5.toNat * 4 + b6.toNat * 2 + b7.toNat)

/-- The bytes of a bit sequence whose length is a multiple of 8 (R150). -/
def packBytes : Bits → Bytes
  | b0 :: b1 :: b2 :: b3 :: b4 :: b5 :: b6 :: b7 :: rest =>
    packByte b0 b1 b2 b3 b4 b5 b6 b7 :: packBytes rest
  | _ => []

/-- `pack(bits) -> (bytes, padding)` of R150. -/
def pack (bits : Bits) : Bytes × Nat :=
  (packBytes (bits ++ List.replicate (paddingOf bits.length) false), paddingOf bits.length)

/-- `unpack(bytes, total) -> bits` of R152: bit t is bit 7 - t mod 8 of byte t div 8. R152 does not
define it for total > 8·|bytes|; there the bits beyond the bytes are 0, which no command reaches
(DESIGN CHOICE, log 17). -/
def unpack (bytes : Bytes) (total : Nat) : Bits :=
  (List.range total).map (fun t => (bytes.getD (t / 8) 0).getLsbD (7 - t % 8))

/-- `code_bits` of R154 from index `i` of the input on: the codewords in input order, or the index
of the first byte that the table lacks. -/
def codeBitsFrom (table : Byte → Option Bits) (i : Nat) : Bytes → Except Nat Bits
  | [] => .ok []
  | b :: rest =>
    match table b with
    | none => .error i
    | some w =>
      match codeBitsFrom table (i + 1) rest with
      | .error j => .error j
      | .ok bits => .ok (w ++ bits)

/-- `code_bits(T, buf)` of R154. -/
def codeBits (table : Byte → Option Bits) (buf : Bytes) : Except Nat Bits :=
  codeBitsFrom table 0 buf

/-- PACK's first lines: STAGE, then DLEN and PAD at 0 (R155). -/
def packStart (s : State) : State := { s.startStage 0x04 with dlen := 0, pad := 0 }

/-- A failing PACK leaves every byte of DBUF unspecified (R155, R61). -/
def packFail (e : ErrorKind) (info : Word) (s : State) : StageExit :=
  raise e info { packStart s with dbuf := s.dbuf.forget }

/-- The stage PACK (R155). -/
def packStage (s : State) : StageExit :=
  if s.vCw = false then packFail .notReady 0 s
  else
    match codeBits (codeword s) (inputBytes s) with
    | .error i => packFail .unknownSymbol (BitVec.ofNat 32 i) s
    | .ok bits =>
      if s.dbufCap < (pack bits).1.length then packFail .bufferOverflow 0 s
      else
        succeed
          { packStart s with
            dbuf := s.dbuf.writeBytes 0 (pack bits).1
            dlen := BitVec.ofNat 32 (pack bits).1.length
            pad := BitVec.ofNat 3 (pack bits).2 }

/-- PACK (R155). -/
def execPack (s : State) : Host.Outcome State Fault Refusal := (packStage s).outcome

end Sys2Proof.Machine
end

