-- ==== Sys2Proof/Machine/Walk.lean ====
section
/-! DEFINITION. Decoder, the tree-guided bitstream walker, command WALK (46_decoder.md). -/
namespace Sys2Proof.Machine

/-- The loop of R196 from a level on, over the tree's leaves: the symbols emitted and the level at
the end. The default 0 of a leaf is never taken for a level of the tree (log 14). -/
def walkFrom (leafSyms : Bytes) (level : Nat) : Bits → Bytes × Nat
  | [] => ([], level)
  | false :: rest =>
    (leafSyms.getD level 0 :: (walkFrom leafSyms 0 rest).1, (walkFrom leafSyms 0 rest).2)
  | true :: rest =>
    if level = leafSyms.length - 2 then
      (leafSyms.getD (leafSyms.length - 1) 0 :: (walkFrom leafSyms 0 rest).1,
        (walkFrom leafSyms 0 rest).2)
    else walkFrom leafSyms (level + 1) rest

/-- `walk(t, bits) -> (out, level)` of R196, the tree held as its leaves (R30). -/
def walk (leafSyms : Bytes) (bits : Bits) : Bytes × Nat := walkFrom leafSyms 0 bits

/-- The data bits of WALK: the first 8·DLEN − PAD bits of the packed data (R195, R198). -/
def dataBits (s : State) : Bits := unpack (packedBytes s) (8 * s.dlen.toNat - s.pad.toNat)

/-- WALK's first lines: STAGE, then OLEN at 0 (R198). -/
def walkStart (s : State) : State := { s.startStage 0x09 with olen := 0 }

/-- A failing WALK leaves every byte of OBUF unspecified (R198, R61). -/
def walkFail (e : ErrorKind) (info : Word) (s : State) : StageExit :=
  raise e info { walkStart s with obuf := s.obuf.forget }

/-- The stage WALK (R198). -/
def walkStage (s : State) : StageExit :=
  if s.vTree = false then walkFail .notReady 0 s
  else if 8 * s.dlen.toNat < s.pad.toNat then walkFail .malformedContainer 4 s
  else if (walk (leafList s) (dataBits s)).2 ≠ 0 then
    walkFail .truncatedBitstream (BitVec.ofNat 32 (walk (leafList s) (dataBits s)).2) s
  else if s.obufCap < (walk (leafList s) (dataBits s)).1.length then
    walkFail .bufferOverflow 0 s
  else
    succeed
      { walkStart s with
        obuf := s.obuf.writeBytes 0 (walk (leafList s) (dataBits s)).1
        olen := BitVec.ofNat 32 (walk (leafList s) (dataBits s)).1.length }

/-- WALK (R198). -/
def execWalk (s : State) : Host.Outcome State Fault Refusal := (walkStage s).outcome

end Sys2Proof.Machine
end

