-- ==== Sys2Proof/Machine/Composite.lean ====
section
/-! DEFINITION. The encode and decode data flows, the commands ENCODE and DECODE (47_composite.md). -/
namespace Sys2Proof.Machine

/-- The seven stages of ENCODE, ended by the first that raises (R210, R211). -/
def encodeStages (s : State) : StageExit :=
  (clearStage s)
    |>.andThen rankStage
    |>.andThen buildStage
    |>.andThen deriveStage
    |>.andThen packStage
    |>.andThen serStage
    |>.andThen tobytesStage

/-- ENCODE (R211). -/
def execEncode (s : State) : Host.Outcome State Fault Refusal := (encodeStages s).outcome

/-- The four stages of DECODE, ended by the first that raises (R210, R215). -/
def decodeStages (s : State) : StageExit :=
  (clearStage s)
    |>.andThen frombytesStage
    |>.andThen deserStage
    |>.andThen walkStage

/-- DECODE (R215). -/
def execDecode (s : State) : Host.Outcome State Fault Refusal := (decodeStages s).outcome

/-! ## The data flows as functions -/

/-- `encode(buf)` of R212. `code_bits` cannot fail there; its failure is UnknownSymbol (R154). -/
def encodeBuffer (buf : Bytes) : Except Failure Bytes := do
  let r ← rankOrder buf
  let t ← buildTree r
  let table ← deriveTable t
  match codeBits table.codeOf buf with
  | .error i => .error ⟨.unknownSymbol, BitVec.ofNat 32 i⟩
  | .ok bits =>
    let tree ← serializeTree t
    .ok (toBytes
      { padding := BitVec.ofNat 8 (pack bits).2
        serializedTree := tree
        packedData := (pack bits).1 })

/-- `decode(c)` of R216. -/
def decodeContainer (buf : Bytes) : Except Failure Bytes := do
  let c ← fromBytes buf
  let t ← deserializeTree c.serializedTree
  if 8 * c.packedData.length < c.padding.toNat then .error ⟨.malformedContainer, 4⟩
  else
    let bits := unpack c.packedData (8 * c.packedData.length - c.padding.toNat)
    if (walk (leaves t) bits).2 ≠ 0 then
      .error ⟨.truncatedBitstream, BitVec.ofNat 32 (walk (leaves t) bits).2⟩
    else .ok (walk (leaves t) bits).1

end Sys2Proof.Machine
end

