-- ==== Sys2Proof/Machine/Dispatch.lean ====
section
/-! DEFINITION. The meaning of each command, one arm per constructor of `Instr`. -/
namespace Sys2Proof.Machine

def exec (i : Instr) (s : State) : Host.Outcome State Fault Refusal :=
  match i with
  | .nop => Sys2Proof.Machine.execNop s
  | .rank => Sys2Proof.Machine.execRank s
  | .build => Sys2Proof.Machine.execBuild s
  | .derive => Sys2Proof.Machine.execDerive s
  | .pack => Sys2Proof.Machine.execPack s
  | .ser => Sys2Proof.Machine.execSer s
  | .deser => Sys2Proof.Machine.execDeser s
  | .tobytes => Sys2Proof.Machine.execTobytes s
  | .frombytes => Sys2Proof.Machine.execFrombytes s
  | .walk => Sys2Proof.Machine.execWalk s
  | .encode => Sys2Proof.Machine.execEncode s
  | .decode => Sys2Proof.Machine.execDecode s
  | .clear => Sys2Proof.Machine.execClear s
  | .sreset => Sys2Proof.Machine.execSreset s

end Sys2Proof.Machine
end

