-- ==== Sys2Proof/Machine/HostPort.lean ====
section
/-! DEFINITION. The host's port: register reads and writes, the SEL/DATA window, the CMD write and the
reset events (20_memory.md rules R66 to R75), and the host script notation (30_encoding.md R95). -/
namespace Sys2Proof.Machine

/-! ## The window on the element spaces -/

/-- SPACE, SEL[31:28] (R38). -/
def selSpace (sel : Word) : Nat := (sel.extractLsb' 28 4).toNat

/-- INDEX, SEL[27:0] (R38). -/
def selIndex (sel : Word) : Nat := (sel.extractLsb' 0 28).toNat

/-- An entry of RANK or TSYM that R61 specifies: the file is valid and the index below its count. -/
def fileElement (valid : Bool) (count : Nat) (f : Vector Byte 256) (i : Nat) : Option Byte :=
  if valid = true ∧ i < count then f.toList[i]? else none

/-- CWLEN[i] where R61 specifies it. -/
def cwlenElement (s : State) (i : Nat) : Option Byte :=
  if s.vCw = true then s.cwlen.toList[i]? else none

/-- CWBITS[i div 256][i mod 256], 0 or 1, where R61 and R68 specify it. -/
def cwbitElement (s : State) (i : Nat) : Option Byte :=
  match s.cwlen.toList[i / 256]?, s.cwbits.toList[i / 256]? with
  | some len, some bits =>
    if s.vCw = true ∧ i % 256 < len.toNat then some (BitVec.ofNat 8 (bits.getLsbD (i % 256)).toNat)
    else none
  | _, _ => none

/-- A buffer byte inside the buffer that R61 specifies. -/
def bufferElement (cap : Nat) (m : Memory) (i : Nat) : Option Byte :=
  if i < cap then m.read? i else none

/-- The element `S:i` where the rules specify it, `none` where they do not (R61, R68). -/
def specifiedElement (s : State) (space i : Nat) : Option Byte :=
  match Space.ofNumber space with
  | some .ibuf => bufferElement s.ibufCap s.ibuf i
  | some .obuf => bufferElement s.obufCap s.obuf i
  | some .tbuf => bufferElement Config.tbufCap s.tbuf i
  | some .dbuf => bufferElement s.dbufCap s.dbuf i
  | some .rank => fileElement s.vRank s.n.toNat s.rank i
  | some .tsym => fileElement s.vTree s.tn.toNat s.tsym i
  | some .cwlen => cwlenElement s i
  | some .cwbit => cwbitElement s i
  | none => none

/-- HostRead(DATA) of R68: the selected element zero-extended, or an unspecified word (log 5). -/
def readWindow (s : State) : Word :=
  match specifiedElement s (selSpace s.sel) (selIndex s.sel) with
  | some e => e.setWidth 32
  | none => Config.freeWord s.accesses

/-- HostWrite(DATA, w) of R69: IBUF, TBUF and DBUF within their sizes; ignored elsewhere. -/
def writeWindow (s : State) (w : Word) : State :=
  match Space.ofNumber (selSpace s.sel) with
  | some .ibuf =>
    if selIndex s.sel < s.ibufCap then
      { s with ibuf := s.ibuf.write (selIndex s.sel) (w.setWidth 8) }
    else s
  | some .tbuf =>
    if selIndex s.sel < Config.tbufCap then
      { s with tbuf := s.tbuf.write (selIndex s.sel) (w.setWidth 8) }
    else s
  | some .dbuf =>
    if selIndex s.sel < s.dbufCap then
      { s with dbuf := s.dbuf.write (selIndex s.sel) (w.setWidth 8) }
    else s
  | _ => s

/-! ## Registers -/

/-- HostRead(r) of R67, laid out as R32 says; `none` for a reserved register (R41). -/
def readRegister (s : State) (r : Nat) : Option Word :=
  match r with
  | 0 => some s.lastCmd
  | 1 => some (statusWord s)
  | 2 => some (s.errCode.setWidth 32)
  | 3 => some (s.stage.setWidth 32)
  | 4 => some s.errInfo
  | 5 => some (validWord s)
  | 6 => some s.ilen
  | 7 => some s.olen
  | 8 => some (s.tlen.setWidth 32)
  | 9 => some s.dlen
  | 10 => some (s.pad.setWidth 32)
  | 11 => some (s.n.setWidth 32)
  | 12 => some (s.tn.setWidth 32)
  | 13 => some s.sel
  | 14 => some (readWindow s)
  | 16 => some (BitVec.ofNat 32 s.ibufCap)
  | 17 => some (BitVec.ofNat 32 s.obufCap)
  | 18 => some (BitVec.ofNat 32 s.dbufCap)
  | 19 => some (BitVec.ofNat 32 Config.tbufCap)
  | _ => none

/-- HostWrite(r, w) for every register but CMD (R69, R70): a value above its bound and a write to a
read-only register are ignored; `none` for a reserved register (R41). -/
def writeRegister (s : State) (r : Nat) (w : Word) : Option State :=
  match r with
  | 6 => some (if w.toNat ≤ s.ibufCap then { s with ilen := w } else s)
  | 8 => some (if w.toNat ≤ Config.tbufCap then { s with tlen := w.setWidth 9 } else s)
  | 9 => some (if w.toNat ≤ s.dbufCap then { s with dlen := w } else s)
  | 10 => some (if w.toNat ≤ 7 then { s with pad := w.setWidth 3 } else s)
  | 13 => some { s with sel := w }
  | 14 => some (writeWindow s w)
  | _ => if RegisterAccess.defined r then some s else none

/-- HostWrite(CMD, w) of R72: LASTCMD, then the command the word encodes, to its end. A word that
is no command enters the error entry and changes nothing else (R91, R250). -/
def writeCommand (s : State) (w : Word) : Host.Outcome State Fault Refusal :=
  match decode w with
  | .ok i => exec i { s with lastCmd := w }
  | .error _ => (raise .illegalCommand w { s with lastCmd := w }).outcome

/-- A register write by number. -/
def hostWrite (s : State) (r : Nat) (w : Word) : Host.Outcome State Fault Refusal :=
  match r with
  | 0 => writeCommand s w
  | r + 1 =>
    match writeRegister s (r + 1) w with
    | some t => .next t
    | none => .refused (.reservedRegister (r + 1))

/-- A register read by number: the word goes to the host and nothing else changes (R65, R67). -/
def hostRead (s : State) (r : Nat) : Host.Outcome State Fault Refusal :=
  match readRegister s r with
  | some v => .next { s with readData := s.readData ++ [v] }
  | none => .refused (.reservedRegister r)

/-- One act of the host. An access that is not a whole aligned word is refused (R74, U7); a reset
during a command leaves the reset state and no trace of the command (R271, log 11). -/
def runEvent (s : State) : HostEvent → Host.Outcome State Fault Refusal
  | .write offset size value =>
    if RegisterAccess.wholeWord offset size then hostWrite s (offset / 4) value
    else .refused (.notAWholeWord offset size)
  | .read offset size =>
    if RegisterAccess.wholeWord offset size then hostRead s (offset / 4)
    else .refused (.notAWholeWord offset size)
  | .reset => .next (resetState s)
  | .resetDuring _ => .next (resetState s)

/-- The state once the host's oldest pending act is taken up, `rest` being the acts after it. -/
def takeEvent (s : State) (rest : List HostEvent) : State :=
  { s with pending := rest, accesses := s.accesses + 1 }

/-! ## Bus addresses -/

/-- Register r is at byte address HCE_BASE + 4·r (R73). -/
def registerAddress (r : Nat) : Nat := Config.hceBase + 4 * r

/-- The offset in the block that a bus address stands for; an address below HCE_BASE is not the
block's (R73, log 12). -/
def busOffset (address : Nat) : Option Nat :=
  if Config.hceBase ≤ address then some (address - Config.hceBase) else none

/-! ## Host script notation (R95) -/

/-- `WR <reg>, <value>`. -/
def scriptWr (r : Nat) (value : Word) : HostEvent := .write (4 * r) 4 value

/-- `RD <reg>`. -/
def scriptRd (r : Nat) : HostEvent := .read (4 * r) 4

/-- `CMD <MNEMONIC>`. -/
def scriptCmd (i : Instr) : HostEvent := scriptWr 0 (encode i)

/-- The SEL value of the element `S:i`. -/
def selOf (space : Space) (i : Nat) : Word := BitVec.ofNat 32 (space.number * 2 ^ 28 + i)

/-- `PUT <S>:<i>, <byte>`. -/
def scriptPut (space : Space) (i : Nat) (b : Byte) : List HostEvent :=
  [scriptWr 13 (selOf space i), scriptWr 14 (b.setWidth 32)]

/-- `GET <S>:<i>`. -/
def scriptGet (space : Space) (i : Nat) : List HostEvent :=
  [scriptWr 13 (selOf space i), scriptRd 14]

/-- The PUTs of `LOAD <bytes>` from index `i` on. -/
def scriptPutAll (i : Nat) : Bytes → List HostEvent
  | [] => []
  | b :: rest => scriptPut .ibuf i b ++ scriptPutAll (i + 1) rest

/-- `LOAD <bytes>`. -/
def scriptLoad (bytes : Bytes) : List HostEvent :=
  scriptPutAll 0 bytes ++ [scriptWr 6 (BitVec.ofNat 32 bytes.length)]

/-- `DUMP`, `len` being the word that its first access, RD OLEN, returns. -/
def scriptDump (len : Nat) : List HostEvent :=
  scriptRd 7 :: (List.range len).flatMap (scriptGet .obuf)

/-- `MOVE`, `bytes` being the bytes that its DUMP reads. -/
def scriptMove (bytes : Bytes) : List HostEvent :=
  scriptDump bytes.length ++ scriptLoad bytes

end Sys2Proof.Machine
end

