-- ==== Sys2Proof/Machine/Step.lean ====
section
/-! DEFINITION. One step of the machine: the host's oldest pending act (00_scope.md rule R6). -/
namespace Sys2Proof.Machine

/-- One step. The engine acts only when the host does (R6, R272): with nothing pending the state stays
as it is (log 2). -/
def step (s : State) : Host.Outcome State Fault Refusal :=
  match s.pending with
  | [] => .next s
  | e :: rest => runEvent (takeEvent s rest) e

/-- The state whose next step is the host's write of an opcode table row's word to CMD (log 1). -/
def State.withFetchWord (s : State) (nbits w : Nat) : State :=
  { s with pending := .write 0 4 (tableWord nbits w) :: s.pending }

end Sys2Proof.Machine
end

