-- ==== Sys2Proof/Safety.lean ====
section
/-! DEFINITION. The terms in which claims about the machine are written: how a command reports, what a
command keeps, the invariants of the state, and a rank order, a codeword and a composite as the spec
describes them. -/
namespace Sys2Proof.Machine

/-! ## Reports -/

/-- The command ended through the success exit, `op` being the last stage's opcode (R244, R37). -/
def ReportsSuccess (op : BitVec 8) (t : State) : Prop :=
  t.statusDone = true ∧ t.statusErr = false ∧ t.errCode = 0 ∧ t.errInfo = 0 ∧ t.stage = op

/-- The command ended through the error entry, `op` being the raising stage's opcode (R245, R37). -/
def ReportsError (code : BitVec 4) (info : Word) (op : BitVec 8) (t : State) : Prop :=
  t.statusDone = false ∧ t.statusErr = true ∧ t.errCode = code ∧ t.errInfo = info ∧ t.stage = op

/-! ## Frames: the groups of state that 20_memory.md rule R79 speaks of -/

/-- RANK, N and V_RANK are the same. -/
def KeepsRank (s t : State) : Prop := t.rank = s.rank ∧ t.n = s.n ∧ t.vRank = s.vRank

/-- TSYM, TN and V_TREE are the same. -/
def KeepsTree (s t : State) : Prop := t.tsym = s.tsym ∧ t.tn = s.tn ∧ t.vTree = s.vTree

/-- CWLEN, CWBITS and V_CW are the same. -/
def KeepsTable (s t : State) : Prop :=
  t.cwlen = s.cwlen ∧ t.cwbits = s.cwbits ∧ t.vCw = s.vCw

/-- Every byte of TBUF, and TLEN, are the same. -/
def KeepsTreeBytes (s t : State) : Prop := t.tbuf = s.tbuf ∧ t.tlen = s.tlen

/-- Every byte of DBUF, DLEN and PAD are the same. -/
def KeepsPacked (s t : State) : Prop := t.dbuf = s.dbuf ∧ t.dlen = s.dlen ∧ t.pad = s.pad

/-- Every byte of OBUF, and OLEN, are the same. -/
def KeepsOutput (s t : State) : Prop := t.obuf = s.obuf ∧ t.olen = s.olen

/-- STATUS, ERRCODE, ERRINFO and STAGE are the same. -/
def KeepsReport (s t : State) : Prop :=
  t.statusDone = s.statusDone ∧ t.statusErr = s.statusErr ∧ t.errCode = s.errCode ∧
    t.errInfo = s.errInfo ∧ t.stage = s.stage

/-- The registers of constant capacity are the same (R40). -/
def KeepsCapacities (s t : State) : Prop :=
  t.ibufCap = s.ibufCap ∧ t.obufCap = s.obufCap ∧ t.dbufCap = s.dbufCap

/-- The host's side is the same: the model's own fields. -/
def KeepsHostSide (s t : State) : Prop :=
  t.pending = s.pending ∧ t.readData = s.readData ∧ t.accesses = s.accesses

/-- What no command but SRESET changes: every byte of IBUF, ILEN, SEL, LASTCMD, the capacities and
the host's side. -/
def KeepsInput (s t : State) : Prop :=
  t.ibuf = s.ibuf ∧ t.ilen = s.ilen ∧ t.sel = s.sel ∧ t.lastCmd = s.lastCmd ∧
    KeepsCapacities s t ∧ KeepsHostSide s t

/-- The rank order is invalid (InvalidateRank of R45). -/
def RankInvalid (t : State) : Prop := t.vRank = false ∧ t.n = 0

/-- The tree is invalid (InvalidateTree of R45). -/
def TreeInvalid (t : State) : Prop := t.vTree = false ∧ t.tn = 0

/-- Nothing of a buffer is specified (R61, after a failure or CLEAR). -/
def NothingSpecified (m : Memory) : Prop := ∀ i, m.read? i = none

/-- From index `len` on every byte of a buffer is as it was, specified or not (R61: a successful
command "leaves every other byte of it as it was"). -/
def SameFrom (len : Nat) (m m' : Memory) : Prop :=
  m'.epoch = m.epoch ∧ ∀ i, len ≤ i → m'.read? i = m.read? i

/-! ## What a composite leaves -/

/-- RANK holds the rank order `r` (R27, R39). -/
def HoldsRank (r : Bytes) (t : State) : Prop :=
  t.vRank = true ∧ t.n.toNat = r.length ∧ rankList t = r

/-- TSYM holds the chain whose leaves are `r` (R30, R39). -/
def HoldsTree (r : Bytes) (t : State) : Prop :=
  t.vTree = true ∧ t.tn.toNat = r.length ∧ leafList t = r

/-- CWLEN and CWBITS hold the chain code of the leaves `r` (R31, R39). -/
def HoldsTable (r : Bytes) (t : State) : Prop :=
  t.vCw = true ∧ ∀ sym, codeword t sym = (chainEntries r).lookup sym

/-- DBUF, DLEN and PAD hold the packed bits: `ceil8` bytes and the padding of R150. -/
def HoldsPacked (bits : Bits) (t : State) : Prop :=
  packedBytes t = (pack bits).1 ∧ t.dlen.toNat = (bits.length + 7) / 8 ∧
    t.pad.toNat = (8 - bits.length % 8) % 8

/-! ## Invariants -/

/-- The capacities lie in the ranges of R7. -/
def CapsInRange (s : State) : Prop :=
  (2 ≤ s.ibufCap ∧ s.ibufCap ≤ Config.maxCap) ∧ (2 ≤ s.obufCap ∧ s.obufCap ≤ Config.maxCap) ∧
    (1 ≤ s.dbufCap ∧ s.dbufCap ≤ Config.maxCap)

/-- Every length register holds a legal value (R25 to R30, D23). -/
def LengthsInRange (s : State) : Prop :=
  s.ilen.toNat ≤ s.ibufCap ∧ s.olen.toNat ≤ s.obufCap ∧ s.tlen.toNat ≤ Config.tbufCap ∧
    s.dlen.toNat ≤ s.dbufCap ∧ s.n.toNat ≤ 256 ∧ s.tn.toNat ≤ 256

/-- The invariants of the valid flags that R39 states. -/
def FlagsCoherent (s : State) : Prop :=
  (s.vCw = true → s.vTree = true) ∧ (s.vTree = true → 2 ≤ s.tn.toNat) ∧
    (s.vRank = false → s.n = 0) ∧ (s.vTree = false → s.tn = 0) ∧
    (s.vTree = true →
      s.vRank = true ∧ s.tn = s.n ∧ ∀ i, i < s.tn.toNat → s.tsym.toList[i]? = s.rank.toList[i]?)

/-- While V_CW = 1 the table is the one DERIVE makes from the tree now in TSYM (R31, R39). -/
def TableCoherent (s : State) : Prop :=
  s.vCw = true →
    (leafList s).Nodup ∧ ∀ sym, codeword s sym = (chainEntries (leafList s)).lookup sym

/-- STATUS, ERRCODE and ERRINFO agree (R34, R35, R36) and no code from 12 up is used (R241). -/
def ReportCoherent (s : State) : Prop :=
  ¬(s.statusDone = true ∧ s.statusErr = true) ∧
    (s.statusErr = false → s.errCode = 0 ∧ s.errInfo = 0) ∧
    (s.statusErr = true → 1 ≤ s.errCode.toNat ∧ s.errCode.toNat ≤ 11)

/-- STAGE holds 0 or the opcode of a stage (R32, R37). -/
def StageLegal (s : State) : Prop := s.stage.toNat ≤ 9 ∨ s.stage.toNat = 0x0C

/-- Every listed index of a buffer is below its capacity (R61). -/
def InBounds (cap : Nat) (m : Memory) : Prop := ∀ i, cap ≤ i → m.read? i = none

/-- The four buffers are in canonical form and hold nothing outside their index ranges, and the bytes
of OBUF below OLEN are specified (R61). -/
def BuffersCoherent (s : State) : Prop :=
  (s.ibuf.wf ∧ s.obuf.wf ∧ s.tbuf.wf ∧ s.dbuf.wf) ∧
    (InBounds s.ibufCap s.ibuf ∧ InBounds s.obufCap s.obuf ∧ InBounds Config.tbufCap s.tbuf ∧
      InBounds s.dbufCap s.dbuf) ∧
    ∀ i, i < s.olen.toNat → (s.obuf.read? i).isSome = true

/-- Every register is at its reset value and nothing is specified in any buffer (R47, R270). -/
def AtReset (t : State) : Prop :=
  (t.lastCmd = 0 ∧ t.statusDone = false ∧ t.statusErr = false ∧ t.errCode = 0 ∧ t.stage = 0 ∧
      t.errInfo = 0 ∧ t.vRank = false ∧ t.vTree = false ∧ t.vCw = false) ∧
    (t.ilen = 0 ∧ t.olen = 0 ∧ t.tlen = 0 ∧ t.dlen = 0 ∧ t.pad = 0 ∧ t.n = 0 ∧ t.tn = 0 ∧
      t.sel = 0) ∧
    (NothingSpecified t.ibuf ∧ NothingSpecified t.obuf ∧ NothingSpecified t.tbuf ∧
      NothingSpecified t.dbuf)

/-- The state invariant: what holds at reset and after every step. -/
structure State.Inv (s : State) : Prop where
  caps : CapsInRange s
  lengths : LengthsInRange s
  flags : FlagsCoherent s
  table : TableCoherent s
  report : ReportCoherent s
  stage : StageLegal s
  buffers : BuffersCoherent s

/-! ## The spec's own descriptions, independent of the functions that compute them -/

/-- `a` comes before `b` in the rank order of `buf`: by descending count, then ascending value
(R121). -/
def RanksBefore (buf : Bytes) (a b : Byte) : Prop :=
  buf.count b < buf.count a ∨ (buf.count a = buf.count b ∧ a.toNat < b.toNat)

/-- `r` is the rank order of `buf`: its distinct symbols, each once, in the order of R121. -/
def IsRankOrder (buf r : Bytes) : Prop :=
  (∀ sym, sym ∈ r ↔ sym ∈ buf) ∧ r.Pairwise (RanksBefore buf)

/-- The codeword of the leaf at place `i` of a chain of `count` leaves, in the words of R100 and
R142: `rep(1, i) ++ [0]` up to the last leaf but one, `rep(1, count - 1)` for the last. -/
def IsChainCode (count i : Nat) (w : Bits) : Prop :=
  (i + 2 ≤ count → w = List.replicate i true ++ [false]) ∧
    (i + 1 = count → w = List.replicate (count - 1) true)

/-- The number of levels of a tree (R21). -/
def levels : CodeTree → Nat
  | .level _ (.leaf _) => 1
  | .level _ (.branch sub) => levels sub + 1

/-- The coded bits of `buf` when `r` are the leaves of the tree: the codewords of the input bytes, in
input order (R102). -/
def codedBits (r buf : Bytes) : Bits :=
  buf.flatMap (fun b => ((chainEntries r).lookup b).getD [])

/-- The error codes each command may report, 0 for none: the table of R242 with the codes of R241.
NOP reports nothing. -/
def allowedErrors : Instr → List Nat
  | .nop => []
  | .rank => [0, 1]
  | .build => [0, 9, 2]
  | .derive => [0, 9, 11]
  | .pack => [0, 9, 6, 8]
  | .ser => [0, 9, 7]
  | .deser => [0, 3, 2]
  | .tobytes => [0, 8]
  | .frombytes => [0, 4, 8]
  | .walk => [0, 9, 4, 5, 8]
  | .encode => [0, 1, 2, 7, 8]
  | .decode => [0, 4, 2, 5, 8]
  | .clear => [0]
  | .sreset => [0]

/-- The commands of a list run one after another, ended by the first whose report is an error: the
host issuing them "one by one and stopping at the first error" (R210). -/
def runUntilError : List Instr → State → Host.Outcome State Fault Refusal
  | [], s => .next s
  | i :: rest, s =>
    match exec i s with
    | .next t => if t.statusErr = true then .next t else runUntilError rest t
    | .fault r => .fault r
    | .refused r => .refused r

end Sys2Proof.Machine
end

