-- ==== Sys2Proof/Certificates/Slice0/Obligations.lean ====
section
/-! DEFINITION. The statements for the provers, from the numbered rules of spec/. A rule named with
"inferred" is one that the spec itself marks as derived from others. -/

open Sys2Proof Sys2Proof.Machine

/-! ## Encoding (30_encoding.md) -/

/-- Decoding a command's word gives the command. -/
def Obligations.EncodedCommandDecodesToItself : Prop :=
  ∀ i : Instr, decode (encode i) = .ok i

/-- R91, R94: the words that decode are the fourteen command words and no others; every other word is
refused, and the refused ones are those with a non-zero RSV field or an opcode outside R92's map. -/
def Obligations.OnlyTheFourteenWordsAreCommands : Prop :=
  ∀ w : Word,
    (∀ i, decode w = .ok i ↔ w = encode i) ∧
    ((∃ r, decode w = .error r) ↔
      (w.toNat / 256 ≠ 0 ∨ w.toNat % 256 = 0x0D ∨ w.toNat % 256 = 0x0E ∨ 0x10 ≤ w.toNat % 256))

/-- R92: the opcode map, word by word, and three words that are no command. -/
def Obligations.OpcodeMapWordsDecode : Prop :=
  (decode 0x00000000#32 = .ok .nop ∧ decode 0x00000001#32 = .ok .rank ∧
    decode 0x00000002#32 = .ok .build ∧ decode 0x00000003#32 = .ok .derive ∧
    decode 0x00000004#32 = .ok .pack ∧ decode 0x00000005#32 = .ok .ser ∧
    decode 0x00000006#32 = .ok .deser ∧ decode 0x00000007#32 = .ok .tobytes ∧
    decode 0x00000008#32 = .ok .frombytes ∧ decode 0x00000009#32 = .ok .walk ∧
    decode 0x0000000A#32 = .ok .encode ∧ decode 0x0000000B#32 = .ok .decode ∧
    decode 0x0000000C#32 = .ok .clear ∧ decode 0x0000000F#32 = .ok .sreset) ∧
  (decode 0x0000000D#32 = .error (.reservedOpcode 0x0D) ∧
    decode 0x000000FF#32 = .error (.reservedOpcode 0xFF) ∧
    decode 0x0000010A#32 = .error (.reservedField 1))

/-! ## The step and the host's port (20_memory.md) -/

/-- R72: a step at a pending write of a command's word to CMD stores the word in LASTCMD and is the
command's meaning there. `takeEvent` takes the access off the host's list and counts it; that list is
the model's form (log 1). -/
def Obligations.StepRunsTheDecodedCommand : Prop :=
  ∀ (s : State) (rest : List HostEvent) (w : Word) (i : Instr),
    s.pending = .write 0 4 w :: rest → decode w = .ok i →
    step s = exec i { takeEvent s rest with lastCmd := w }

/-- R250: a word that is no command is kept in LASTCMD and reported, and nothing else changes. -/
def Obligations.IllegalWordIsReportedAndChangesNothingElse : Prop :=
  ∀ (s : State) (rest : List HostEvent) (w : Word),
    s.pending = .write 0 4 w :: rest →
    (w.toNat / 256 ≠ 0 ∨ w.toNat % 256 = 0x0D ∨ w.toNat % 256 = 0x0E ∨ 0x10 ≤ w.toNat % 256) →
    step s =
      .next
        { takeEvent s rest with
          lastCmd := w, statusDone := false, statusErr := true, errCode := 10, errInfo := w }

/-- With no act of the host pending a step changes nothing. The model's choice (log 2). -/
def Obligations.StepWithNothingPendingKeepsTheState : Prop :=
  ∀ s : State, s.pending = [] → step s = .next s

/-- R67: a read of each register but DATA returns its value zero-extended, laid out as R32 says, and
changes nothing else. -/
def Obligations.RegisterReadReturnsTheRegister : Prop :=
  ∀ (s : State) (rest : List HostEvent) (r : Nat) (v : Word),
    s.pending = .read (4 * r) 4 :: rest →
    (r, v) ∈
      [(0, s.lastCmd),
        (1, (BitVec.ofBool s.statusErr ++ BitVec.ofBool s.statusDone).setWidth 32),
        (2, s.errCode.setWidth 32), (3, s.stage.setWidth 32), (4, s.errInfo),
        (5, (BitVec.ofBool s.vCw ++ BitVec.ofBool s.vTree ++ BitVec.ofBool s.vRank).setWidth 32),
        (6, s.ilen), (7, s.olen), (8, s.tlen.setWidth 32), (9, s.dlen), (10, s.pad.setWidth 32),
        (11, s.n.setWidth 32), (12, s.tn.setWidth 32), (13, s.sel),
        (16, BitVec.ofNat 32 s.ibufCap), (17, BitVec.ofNat 32 s.obufCap),
        (18, BitVec.ofNat 32 s.dbufCap), (19, 256#32)] →
    step s = .next { takeEvent s rest with readData := s.readData ++ [v] }

/-- R68: a read of DATA returns the selected element zero-extended wherever R61 specifies it, some
word in every other case, and changes nothing else. -/
def Obligations.DataReadReturnsTheSelectedElement : Prop :=
  ∀ (s : State) (rest : List HostEvent) (space i : Nat),
    s.pending = .read 56 4 :: rest → space = s.sel.toNat / 2 ^ 28 → i = s.sel.toNat % 2 ^ 28 →
    ∃ v : Word,
      step s = .next { takeEvent s rest with readData := s.readData ++ [v] } ∧
      (space = 0 → i < s.ibufCap → ∀ b, s.ibuf.read? i = some b → v = b.setWidth 32) ∧
      (space = 1 → i < s.obufCap → ∀ b, s.obuf.read? i = some b → v = b.setWidth 32) ∧
      (space = 2 → i < 256 → ∀ b, s.tbuf.read? i = some b → v = b.setWidth 32) ∧
      (space = 3 → i < s.dbufCap → ∀ b, s.dbuf.read? i = some b → v = b.setWidth 32) ∧
      (space = 4 → s.vRank = true → i < s.n.toNat →
        ∀ b, s.rank.toList[i]? = some b → v = b.setWidth 32) ∧
      (space = 5 → s.vTree = true → i < s.tn.toNat →
        ∀ b, s.tsym.toList[i]? = some b → v = b.setWidth 32) ∧
      (space = 6 → s.vCw = true → ∀ b, s.cwlen.toList[i]? = some b → v = b.setWidth 32) ∧
      (space = 7 → s.vCw = true →
        ∀ len bits, s.cwlen.toList[i / 256]? = some len → s.cwbits.toList[i / 256]? = some bits →
          i % 256 < len.toNat → v = if bits.getLsbD (i % 256) = true then 1 else 0)

/-- R69: a write of DATA stores the low byte in IBUF, TBUF or DBUF at an index inside the buffer, and
is ignored everywhere else. -/
def Obligations.DataWriteStoresOnlyInWritableSpaces : Prop :=
  ∀ (s : State) (rest : List HostEvent) (w : Word) (space i : Nat),
    s.pending = .write 56 4 w :: rest → space = s.sel.toNat / 2 ^ 28 → i = s.sel.toNat % 2 ^ 28 →
    ∃ t : State,
      step s = .next t ∧
      (space = 0 ∧ i < s.ibufCap →
        t = { takeEvent s rest with ibuf := t.ibuf } ∧ t.ibuf.epoch = s.ibuf.epoch ∧
        ∀ j, t.ibuf.read? j = if j = i then some (w.setWidth 8) else s.ibuf.read? j) ∧
      (space = 2 ∧ i < 256 →
        t = { takeEvent s rest with tbuf := t.tbuf } ∧ t.tbuf.epoch = s.tbuf.epoch ∧
        ∀ j, t.tbuf.read? j = if j = i then some (w.setWidth 8) else s.tbuf.read? j) ∧
      (space = 3 ∧ i < s.dbufCap →
        t = { takeEvent s rest with dbuf := t.dbuf } ∧ t.dbuf.epoch = s.dbuf.epoch ∧
        ∀ j, t.dbuf.read? j = if j = i then some (w.setWidth 8) else s.dbuf.read? j) ∧
      (¬(space = 0 ∧ i < s.ibufCap) → ¬(space = 2 ∧ i < 256) → ¬(space = 3 ∧ i < s.dbufCap) →
        t = takeEvent s rest)

/-- R70: writes of the scalar registers within their bounds, and the writes that are ignored. -/
def Obligations.ScalarWritesRespectTheirBounds : Prop :=
  ∀ (s : State) (rest : List HostEvent) (r : Nat) (w : Word),
    s.pending = .write (4 * r) 4 w :: rest →
    (r = 6 → step s =
      .next (if w.toNat ≤ s.ibufCap then { takeEvent s rest with ilen := w }
        else takeEvent s rest)) ∧
    (r = 8 → step s =
      .next (if w.toNat ≤ 256 then { takeEvent s rest with tlen := BitVec.ofNat 9 w.toNat }
        else takeEvent s rest)) ∧
    (r = 9 → step s =
      .next (if w.toNat ≤ s.dbufCap then { takeEvent s rest with dlen := w }
        else takeEvent s rest)) ∧
    (r = 10 → step s =
      .next (if w.toNat ≤ 7 then { takeEvent s rest with pad := BitVec.ofNat 3 w.toNat }
        else takeEvent s rest)) ∧
    (r = 13 → step s = .next { takeEvent s rest with sel := w }) ∧
    (r ∈ [1, 2, 3, 4, 5, 7, 11, 12, 16, 17, 18, 19] → step s = .next (takeEvent s rest))

/-- R41, R74: the accesses that the spec asks a model to refuse. Which of the two names a refusal
has, and that size and alignment are looked at first, is the model's choice (DEDUCED, log 13). -/
def Obligations.ReservedAndNarrowAccessesAreRefused : Prop :=
  ∀ (s : State) (rest : List HostEvent) (offset size : Nat) (w : Word),
    (s.pending = .write offset size w :: rest ∨ s.pending = .read offset size :: rest) →
    ((size ≠ 4 ∨ offset % 4 ≠ 0) → step s = .refused (.notAWholeWord offset size)) ∧
    (size = 4 → offset % 4 = 0 → (offset / 4 = 15 ∨ 20 ≤ offset / 4) →
      step s = .refused (.reservedRegister (offset / 4)))

/-- R73: register r is at HCE_BASE + 4·r, a multiple of 4, and the block finds its offset again. -/
def Obligations.RegisterAddressesAreWordAligned : Prop :=
  ∀ r : Nat, registerAddress r % 4 = 0 ∧ busOffset (registerAddress r) = some (4 * r)

/-- R66, R95: the accesses of LOAD, run one a step, leave the bytes as the input buffer and change
nothing but IBUF, ILEN and SEL. -/
def Obligations.LoadSuppliesTheInputBuffer : Prop :=
  ∀ (s : State) (bytes : Bytes) (rest : List HostEvent),
    CapsInRange s → bytes.length ≤ s.ibufCap → s.pending = scriptLoad bytes ++ rest →
    ∃ t : State,
      Sys2Proof.core.run (2 * bytes.length + 1) s = .next t ∧ inputBytes t = bytes ∧
      SameFrom bytes.length s.ibuf t.ibuf ∧
      t =
        { s with
          ibuf := t.ibuf, ilen := BitVec.ofNat 32 bytes.length, sel := t.sel
          pending := rest, accesses := t.accesses }

/-! ## Reset (10_state.md R47, 70_reset_and_hazards.md) -/

/-- R47: the state after reset, and the capacities, the model's opaque constants (log 3), within the
ranges of R7. -/
def Obligations.ResetStateHasTheResetValues : Prop :=
  AtReset State.reset ∧ CapsInRange State.reset

/-- R227, R270, R271: SRESET, the reset input, and the reset input during a command all leave the
reset state, and the capacities. The event of a reset during a command is the model's form (log 11).
-/
def Obligations.EveryResetGivesTheResetState : Prop :=
  ∀ s : State,
    (∃ t, exec .sreset s = .next t ∧ AtReset t ∧ KeepsCapacities s t ∧ KeepsHostSide s t) ∧
    (∀ rest, s.pending = .reset :: rest →
      ∃ t, step s = .next t ∧ AtReset t ∧ KeepsCapacities s t) ∧
    (∀ rest w, s.pending = .resetDuring w :: rest →
      ∃ t, step s = .next t ∧ AtReset t ∧ KeepsCapacities s t)

/-- R272, inferred: the first command after reset, with no input loaded. -/
def Obligations.FirstCommandAfterResetFindsNoInput : Prop :=
  (∃ t, exec .encode State.reset = .next t ∧ ReportsError 1 0 0x01 t) ∧
  (∃ t, exec .decode State.reset = .next t ∧ ReportsError 4 1 0x08 t) ∧
  (∃ t, exec .build State.reset = .next t ∧ ReportsError 9 0 0x02 t) ∧
  (∃ t, exec .derive State.reset = .next t ∧ ReportsError 9 0 0x03 t) ∧
  (∃ t, exec .pack State.reset = .next t ∧ ReportsError 9 0 0x04 t) ∧
  (∃ t, exec .ser State.reset = .next t ∧ ReportsError 9 0 0x05 t) ∧
  (∃ t, exec .walk State.reset = .next t ∧ ReportsError 9 0 0x09 t)

/-! ## Invariants -/

/-- The state after reset meets every invariant. -/
def Obligations.ResetMeetsTheInvariant : Prop := State.reset.Inv

/-- R39 (its last invariant inferred), R31: every step keeps the invariants of the valid flags, and
while V_CW = 1 the table is the chain code of the tree in TSYM. -/
def Obligations.StepKeepsValidFlagsAndTable : Prop :=
  ∀ s t : State,
    FlagsCoherent s → TableCoherent s → step s = .next t → FlagsCoherent t ∧ TableCoherent t

/-- R25 to R30, D23: every step keeps every length within its capacity. -/
def Obligations.StepKeepsLengthsWithinCapacities : Prop :=
  ∀ s t : State,
    CapsInRange s → LengthsInRange s → step s = .next t →
    KeepsCapacities s t ∧ CapsInRange t ∧ LengthsInRange t

/-- R61: every step keeps the buffers in canonical form and within their index ranges, and the bytes
of OBUF below OLEN specified. -/
def Obligations.StepKeepsBuffersCoherent : Prop :=
  ∀ s t : State, BuffersCoherent s → step s = .next t → BuffersCoherent t

/-- R34 to R37: every step keeps STATUS, ERRCODE, ERRINFO and STAGE coherent. -/
def Obligations.StepKeepsReportCoherent : Prop :=
  ∀ s t : State,
    ReportCoherent s → StageLegal s → step s = .next t → ReportCoherent t ∧ StageLegal t

/-! ## The two ends of a command (60_exceptions.md) -/

/-- R241: the code of each error kind. -/
def Obligations.ErrorKindsHaveTheirCodes : Prop :=
  ErrorKind.emptyInput.code = 1 ∧ ErrorKind.insufficientSymbols.code = 2 ∧
  ErrorKind.malformedTree.code = 3 ∧ ErrorKind.malformedContainer.code = 4 ∧
  ErrorKind.truncatedBitstream.code = 5 ∧ ErrorKind.unknownSymbol.code = 6 ∧
  ErrorKind.symbolCountOverflow.code = 7 ∧ ErrorKind.bufferOverflow.code = 8 ∧
  ErrorKind.notReady.code = 9 ∧ ErrorKind.illegalCommand.code = 10 ∧
  ErrorKind.duplicateSymbol.code = 11

/-- R244, R245: the success exit and the error entry write the report registers and nothing else, and
after an error entry no later stage of a composite runs. -/
def Obligations.ExitsWriteOnlyTheReport : Prop :=
  ∀ (s : State) (e : ErrorKind) (info : Word) (next : State → StageExit),
    (succeed s).outcome =
      .next { s with statusDone := true, statusErr := false, errCode := 0, errInfo := 0 } ∧
    (raise e info s).outcome =
      .next { s with statusDone := false, statusErr := true, errCode := e.code, errInfo := info } ∧
    ((raise e info s).andThen next).outcome = (raise e info s).outcome

/-- R249: the report of an earlier command does not gate or alter a later one. -/
def Obligations.EarlierReportDoesNotAlterACommand : Prop :=
  ∀ (i : Instr) (s : State) (done err : Bool) (code : BitVec 4) (info : Word),
    i ≠ .nop →
    exec i { s with statusDone := done, statusErr := err, errCode := code, errInfo := info } =
      exec i s

/-- R242, inferred: each command reports only the kinds its row lists; NOP leaves the report. -/
def Obligations.EachCommandRaisesOnlyItsKinds : Prop :=
  ∀ (i : Instr) (s t : State), exec i s = .next t →
    (i = .nop → KeepsReport s t) ∧ (i ≠ .nop → t.errCode.toNat ∈ allowedErrors i)

/-! ## System commands (48_system.md) -/

/-- R226: NOP changes nothing; the write that issues it sets LASTCMD to 0. -/
def Obligations.NopChangesOnlyLastCommand : Prop :=
  ∀ s : State,
    exec .nop s = .next s ∧
    ∀ rest, s.pending = .write 0 4 0 :: rest →
      step s = .next { takeEvent s rest with lastCmd := 0 }

/-- R228: CLEAR invalidates every derived value and keeps the input. -/
def Obligations.ClearInvalidatesEveryDerivedValue : Prop :=
  ∀ s : State, ∃ t,
    exec .clear s = .next t ∧ ReportsSuccess 0x0C t ∧ RankInvalid t ∧ TreeInvalid t ∧
    t.vCw = false ∧ t.tlen = 0 ∧ t.dlen = 0 ∧ t.pad = 0 ∧ t.olen = 0 ∧
    NothingSpecified t.tbuf ∧ NothingSpecified t.dbuf ∧ NothingSpecified t.obuf ∧ KeepsInput s t

/-! ## FrequencyRanker (40_frequency_ranker.md) -/

/-- R121, and R122, inferred: `rank_order` fails on the empty buffer; on every other it gives the
one sequence of the distinct symbols in rank order, whatever the order of the bytes. -/
def Obligations.RankOrderIsTheOneRankOrder : Prop :=
  ∀ buf : Bytes,
    (buf = [] → rankOrder buf = .error ⟨.emptyInput, 0⟩) ∧
    (buf ≠ [] →
      ∃ r, rankOrder buf = .ok r ∧ IsRankOrder buf r ∧ (∀ r', IsRankOrder buf r' → r' = r) ∧
        r.Nodup ∧ 1 ≤ r.length ∧ r.length ≤ buf.length ∧ r.length ≤ 256) ∧
    (∀ buf', buf.Perm buf' → rankOrder buf' = rankOrder buf)

/-- R123: RANK, with no input and with input. -/
def Obligations.RankFollowsItsRule : Prop :=
  ∀ s : State,
    (s.ilen = 0 →
      ∃ t, exec .rank s = .next t ∧ ReportsError 1 0 0x01 t ∧ RankInvalid t ∧ TreeInvalid t ∧
        t.vCw = false ∧ KeepsInput s t ∧ KeepsTreeBytes s t ∧ KeepsPacked s t ∧
        KeepsOutput s t) ∧
    (s.ilen ≠ 0 →
      ∃ t, exec .rank s = .next t ∧ ReportsSuccess 0x01 t ∧
        IsRankOrder (inputBytes s) (rankList t) ∧ t.n.toNat = (rankList t).length ∧
        t.vRank = true ∧ TreeInvalid t ∧ t.vCw = false ∧ KeepsInput s t ∧
        KeepsTreeBytes s t ∧ KeepsPacked s t ∧ KeepsOutput s t)

/-! ## CodeTreeBuilder (41_tree_builder.md) -/

/-- R130, R131: `build_tree` refuses fewer than two symbols, and of two or more makes the chain, with
one level less than symbols and the symbols as its leaves. -/
def Obligations.BuildTreeMakesTheChain : Prop :=
  (∀ r : Bytes, r.length < 2 →
    buildTree r = .error ⟨.insufficientSymbols, BitVec.ofNat 32 r.length⟩) ∧
  (∀ a b : Byte, buildTree [a, b] = .ok (.level a (.leaf b))) ∧
  (∀ (a : Byte) (rest : Bytes) (t : CodeTree), 2 ≤ rest.length → buildTree rest = .ok t →
    buildTree (a :: rest) = .ok (.level a (.branch t))) ∧
  (∀ r : Bytes, 2 ≤ r.length →
    ∃ t, buildTree r = .ok t ∧ leaves t = r ∧ levels t = r.length - 1)

/-- R133: BUILD, not ready, with too few symbols, and with two or more. -/
def Obligations.BuildFollowsItsRule : Prop :=
  ∀ s : State,
    (s.vRank = false →
      ∃ t, exec .build s = .next t ∧ ReportsError 9 0 0x02 t ∧ TreeInvalid t ∧ t.vCw = false ∧
        KeepsRank s t ∧ KeepsInput s t ∧ KeepsTreeBytes s t ∧ KeepsPacked s t ∧
        KeepsOutput s t) ∧
    (s.vRank = true → s.n.toNat < 2 →
      ∃ t, exec .build s = .next t ∧ ReportsError 2 (BitVec.ofNat 32 s.n.toNat) 0x02 t ∧
        TreeInvalid t ∧ t.vCw = false ∧ KeepsRank s t ∧ KeepsInput s t ∧ KeepsTreeBytes s t ∧
        KeepsPacked s t ∧ KeepsOutput s t) ∧
    (s.vRank = true → 2 ≤ s.n.toNat →
      ∃ t, exec .build s = .next t ∧ ReportsSuccess 0x02 t ∧ leafList t = rankList s ∧
        t.tn = s.n ∧ t.vTree = true ∧ t.vCw = false ∧ KeepsRank s t ∧ KeepsInput s t ∧
        KeepsTreeBytes s t ∧ KeepsPacked s t ∧ KeepsOutput s t)

/-! ## CodeTableDeriver (42_table_deriver.md) -/

/-- R142, inferred: the closed form of `derive_table` on the chain of distinct symbols. -/
def Obligations.DeriveTableHasTheClosedForm : Prop :=
  ∀ (r : Bytes) (t : CodeTree), r.Nodup → buildTree r = .ok t →
    ∃ table, deriveTable t = .ok table ∧
      (∀ i sym, r[i]? = some sym →
        ∃ w, IsChainCode r.length i w ∧ table.codeOf sym = some w) ∧
      ∀ sym, sym ∉ r → table.codeOf sym = none

/-- R143, inferred: codewords are not empty, at most one bit shorter than the tree has leaves, and
none is the beginning of another. -/
def Obligations.DerivedCodewordsArePrefixFree : Prop :=
  ∀ (t : CodeTree) (table : CodeTable), deriveTable t = .ok table →
    ∀ a b wa wb, table.codeOf a = some wa → table.codeOf b = some wb →
      1 ≤ wa.length ∧ wa.length ≤ (leaves t).length - 1 ∧ (a ≠ b → ¬ wa <+: wb)

/-- R144, R145: DERIVE, not ready, with a repeated symbol, and with distinct symbols. -/
def Obligations.DeriveFollowsItsRule : Prop :=
  ∀ s : State,
    (s.vTree = false →
      ∃ t, exec .derive s = .next t ∧ ReportsError 9 0 0x03 t ∧ t.vCw = false ∧ KeepsRank s t ∧
        KeepsTree s t ∧ KeepsInput s t ∧ KeepsTreeBytes s t ∧ KeepsPacked s t ∧
        KeepsOutput s t) ∧
    (s.vTree = true → ∀ (j : Nat) (sym : Byte), (leafList s)[j]? = some sym →
      (∃ i, i < j ∧ (leafList s)[i]? = some sym) →
      (∀ k, k < j → ∀ i, i < k → (leafList s)[i]? ≠ (leafList s)[k]?) →
      ∃ t, exec .derive s = .next t ∧ ReportsError 11 (BitVec.ofNat 32 sym.toNat) 0x03 t ∧
        t.vCw = false ∧ KeepsRank s t ∧ KeepsTree s t ∧ KeepsInput s t ∧ KeepsTreeBytes s t ∧
        KeepsPacked s t ∧ KeepsOutput s t) ∧
    (s.vTree = true → 2 ≤ s.tn.toNat → (leafList s).Nodup →
      ∃ t, exec .derive s = .next t ∧ ReportsSuccess 0x03 t ∧ t.vCw = true ∧
        (∀ i sym, (leafList s)[i]? = some sym →
          ∃ w, IsChainCode (leafList s).length i w ∧ codeword t sym = some w ∧
            (fileAt t.cwlen sym).toNat = w.length) ∧
        (∀ sym, sym ∉ leafList s → fileAt t.cwlen sym = 0 ∧ codeword t sym = none) ∧
        KeepsRank s t ∧ KeepsTree s t ∧ KeepsInput s t ∧ KeepsTreeBytes s t ∧
        KeepsPacked s t ∧ KeepsOutput s t)

/-- R144, R141: DERIVE makes the table that `derive_table` makes of the tree that TSYM represents,
and reports its failure. -/
def Obligations.DeriveRefinesDeriveTable : Prop :=
  ∀ (s t : State) (tree : CodeTree),
    s.vTree = true → buildTree (leafList s) = .ok tree → exec .derive s = .next t →
    (∀ table, deriveTable tree = .ok table →
      t.statusErr = false ∧ t.vCw = true ∧ ∀ sym, codeword t sym = table.codeOf sym) ∧
    (∀ f, deriveTable tree = .error f →
      t.statusErr = true ∧ t.errCode = f.kind.code ∧ t.errInfo = f.info ∧ t.vCw = false)

/-! ## BitPacker (43_bit_packer.md) -/

/-- R150, and R151, inferred: `pack` gives as many bytes as the bits take, the padding of the
formula, and MSB-first the bits followed by zero filler bits. -/
def Obligations.PackAppendsZeroFillerBits : Prop :=
  ∀ bits : Bits,
    (pack bits).1.length = (bits.length + 7) / 8 ∧
    (pack bits).2 = (8 - bits.length % 8) % 8 ∧ (pack bits).2 ≤ 7 ∧
    ((pack bits).2 = 0 ↔ bits.length % 8 = 0) ∧
    ∀ t, t < 8 * (pack bits).1.length →
      ((pack bits).1.getD (t / 8) 0).getLsbD (7 - t % 8) = bits.getD t false

/-- R153, inferred: `unpack` undoes `pack`. -/
def Obligations.UnpackUndoesPack : Prop :=
  ∀ bits : Bits, unpack (pack bits).1 (8 * (pack bits).1.length - (pack bits).2) = bits

/-- R155, R61: PACK, not ready, with an unknown symbol, with packed data that does not fit, and with
packed data that fits. That a success leaves
the bytes of DBUF beyond its result as they were is R61 as log 10 reads it (DEDUCED). -/
def Obligations.PackFollowsItsRule : Prop :=
  ∀ (s : State) (bits : Bits),
    bits = (inputBytes s).flatMap (fun b => (codeword s b).getD []) →
    (s.vCw = false →
      ∃ t, exec .pack s = .next t ∧ ReportsError 9 0 0x04 t ∧ t.dlen = 0 ∧ t.pad = 0 ∧
        NothingSpecified t.dbuf ∧ KeepsRank s t ∧ KeepsTree s t ∧ KeepsTable s t ∧
        KeepsInput s t ∧ KeepsTreeBytes s t ∧ KeepsOutput s t) ∧
    (s.vCw = true → ∀ i b, (inputBytes s)[i]? = some b → codeword s b = none →
      (∀ k c, k < i → (inputBytes s)[k]? = some c → codeword s c ≠ none) →
      ∃ t, exec .pack s = .next t ∧ ReportsError 6 (BitVec.ofNat 32 i) 0x04 t ∧ t.dlen = 0 ∧
        t.pad = 0 ∧ NothingSpecified t.dbuf ∧ KeepsRank s t ∧ KeepsTree s t ∧ KeepsTable s t ∧
        KeepsInput s t ∧ KeepsTreeBytes s t ∧ KeepsOutput s t) ∧
    (s.vCw = true → (∀ b, b ∈ inputBytes s → codeword s b ≠ none) →
      s.dbufCap < (bits.length + 7) / 8 →
      ∃ t, exec .pack s = .next t ∧ ReportsError 8 0 0x04 t ∧ t.dlen = 0 ∧ t.pad = 0 ∧
        NothingSpecified t.dbuf ∧ KeepsRank s t ∧ KeepsTree s t ∧ KeepsTable s t ∧
        KeepsInput s t ∧ KeepsTreeBytes s t ∧ KeepsOutput s t) ∧
    (s.vCw = true → (∀ b, b ∈ inputBytes s → codeword s b ≠ none) → CapsInRange s →
      (bits.length + 7) / 8 ≤ s.dbufCap →
      ∃ t, exec .pack s = .next t ∧ ReportsSuccess 0x04 t ∧ packedBytes t = (pack bits).1 ∧
        t.dlen.toNat = (bits.length + 7) / 8 ∧ t.pad.toNat = (8 - bits.length % 8) % 8 ∧
        SameFrom t.dlen.toNat s.dbuf t.dbuf ∧ KeepsRank s t ∧ KeepsTree s t ∧ KeepsTable s t ∧
        KeepsInput s t ∧ KeepsTreeBytes s t ∧ KeepsOutput s t)

/-! ## TreeSerializer and TreeDeserializer (44_tree_serializer.md) -/

/-- R170, inferred: `deserialize_tree` undoes `serialize_tree` on every tree of at most 255 symbols;
of more, `serialize_tree` fails (R165). -/
def Obligations.DeserializeUndoesSerialize : Prop :=
  ∀ t : CodeTree,
    ((leaves t).length ≤ 255 →
      ∃ bytes, serializeTree t = .ok bytes ∧ deserializeTree bytes = .ok t) ∧
    (255 < (leaves t).length →
      serializeTree t = .error ⟨.symbolCountOverflow, BitVec.ofNat 32 (leaves t).length⟩)

/-- R167, R61: SER, not ready, with 256 leaves, and with at most 255. That a success leaves
the bytes of TBUF beyond its result as they were is R61 as log 10 reads it (DEDUCED). -/
def Obligations.SerFollowsItsRule : Prop :=
  ∀ s : State,
    (s.vTree = false →
      ∃ t, exec .ser s = .next t ∧ ReportsError 9 0 0x05 t ∧ t.tlen = 0 ∧
        NothingSpecified t.tbuf ∧ KeepsRank s t ∧ KeepsTree s t ∧ KeepsTable s t ∧
        KeepsInput s t ∧ KeepsPacked s t ∧ KeepsOutput s t) ∧
    (s.vTree = true → s.tn.toNat = 256 →
      ∃ t, exec .ser s = .next t ∧ ReportsError 7 256 0x05 t ∧ t.tlen = 0 ∧
        NothingSpecified t.tbuf ∧ KeepsRank s t ∧ KeepsTree s t ∧ KeepsTable s t ∧
        KeepsInput s t ∧ KeepsPacked s t ∧ KeepsOutput s t) ∧
    (s.vTree = true → s.tn.toNat ≤ 255 →
      ∃ t, exec .ser s = .next t ∧ ReportsSuccess 0x05 t ∧
        treeBytes t = BitVec.ofNat 8 s.tn.toNat :: leafList s ∧
        t.tlen.toNat = 1 + s.tn.toNat ∧ SameFrom t.tlen.toNat s.tbuf t.tbuf ∧ KeepsRank s t ∧
        KeepsTree s t ∧ KeepsTable s t ∧ KeepsInput s t ∧ KeepsPacked s t ∧ KeepsOutput s t)

/-- R171: DESER, with no bytes, with too few, with a count below 2, and with a tree. -/
def Obligations.DeserFollowsItsRule : Prop :=
  ∀ s : State,
    (s.tlen = 0 →
      ∃ t, exec .deser s = .next t ∧ ReportsError 3 0 0x06 t ∧ RankInvalid t ∧ TreeInvalid t ∧
        t.vCw = false ∧ KeepsInput s t ∧ KeepsTreeBytes s t ∧ KeepsPacked s t ∧
        KeepsOutput s t) ∧
    (∀ c rest, treeBytes s = c :: rest → s.tlen.toNat < 1 + c.toNat →
      ∃ t, exec .deser s = .next t ∧ ReportsError 3 (BitVec.ofNat 32 s.tlen.toNat) 0x06 t ∧
        RankInvalid t ∧ TreeInvalid t ∧ t.vCw = false ∧ KeepsInput s t ∧ KeepsTreeBytes s t ∧
        KeepsPacked s t ∧ KeepsOutput s t) ∧
    (∀ c rest, treeBytes s = c :: rest → 1 + c.toNat ≤ s.tlen.toNat → c.toNat < 2 →
      ∃ t, exec .deser s = .next t ∧ ReportsError 2 (BitVec.ofNat 32 c.toNat) 0x06 t ∧
        rankList t = rest.take c.toNat ∧ t.n.toNat = c.toNat ∧ t.vRank = true ∧
        TreeInvalid t ∧ t.vCw = false ∧ KeepsInput s t ∧ KeepsTreeBytes s t ∧
        KeepsPacked s t ∧ KeepsOutput s t) ∧
    (∀ c rest, treeBytes s = c :: rest → 1 + c.toNat ≤ s.tlen.toNat → 2 ≤ c.toNat →
      ∃ t, exec .deser s = .next t ∧ ReportsSuccess 0x06 t ∧ rankList t = rest.take c.toNat ∧
        leafList t = rest.take c.toNat ∧ t.n.toNat = c.toNat ∧ t.tn.toNat = c.toNat ∧
        t.vRank = true ∧ t.vTree = true ∧ t.vCw = false ∧ KeepsInput s t ∧
        KeepsTreeBytes s t ∧ KeepsPacked s t ∧ KeepsOutput s t)

/-- R170, inferred, on the machine: SER then DESER leaves the tree as it was. -/
def Obligations.SerThenDeserRestoresTheTree : Prop :=
  ∀ s t u : State,
    s.vTree = true → 2 ≤ s.tn.toNat → s.tn.toNat ≤ 255 → exec .ser s = .next t →
    exec .deser t = .next u →
    u.statusDone = true ∧ u.vTree = true ∧ u.tn = s.tn ∧ leafList u = leafList s

/-! ## ContainerCodec (45_container_codec.md) -/

/-- R186, inferred: `from_bytes` undoes `to_bytes` on a legal padding and a serialized tree. -/
def Obligations.FromBytesUndoesToBytes : Prop :=
  ∀ (p c : Byte) (syms data : Bytes), p.toNat ≤ 7 → syms.length = c.toNat →
    fromBytes
        (toBytes { padding := p, serializedTree := c :: syms, packedData := data }) =
      .ok { padding := p, serializedTree := c :: syms, packedData := data }

/-- R182, R61: TOBYTES, with a container that does not fit and with one that fits. That a success
leaves the bytes of OBUF beyond its result as they were is R61 as log 10 reads it (DEDUCED). -/
def Obligations.TobytesFollowsItsRule : Prop :=
  ∀ s : State,
    (s.obufCap < 1 + s.tlen.toNat + s.dlen.toNat →
      ∃ t, exec .tobytes s = .next t ∧ ReportsError 8 0 0x07 t ∧ t.olen = 0 ∧
        NothingSpecified t.obuf ∧ KeepsRank s t ∧ KeepsTree s t ∧ KeepsTable s t ∧
        KeepsInput s t ∧ KeepsTreeBytes s t ∧ KeepsPacked s t) ∧
    (CapsInRange s → 1 + s.tlen.toNat + s.dlen.toNat ≤ s.obufCap →
      ∃ t, exec .tobytes s = .next t ∧ ReportsSuccess 0x07 t ∧
        outputBytes t = BitVec.ofNat 8 s.pad.toNat :: (treeBytes s ++ packedBytes s) ∧
        t.olen.toNat = 1 + s.tlen.toNat + s.dlen.toNat ∧
        SameFrom t.olen.toNat s.obuf t.obuf ∧ KeepsRank s t ∧ KeepsTree s t ∧ KeepsTable s t ∧
        KeepsInput s t ∧ KeepsTreeBytes s t ∧ KeepsPacked s t)

/-- R185, R61: FROMBYTES, with its four errors in their order, and with a container. That a success
leaves the bytes of TBUF and DBUF beyond its result as they were is R61 as log 10 reads it
(DEDUCED). -/
def Obligations.FrombytesFollowsItsRule : Prop :=
  ∀ s : State,
    (s.ilen.toNat < 2 →
      ∃ t, exec .frombytes s = .next t ∧ ReportsError 4 1 0x08 t ∧ t.pad = 0 ∧ t.tlen = 0 ∧
        t.dlen = 0 ∧ NothingSpecified t.tbuf ∧ NothingSpecified t.dbuf ∧ KeepsRank s t ∧
        KeepsTree s t ∧ KeepsTable s t ∧ KeepsInput s t ∧ KeepsOutput s t) ∧
    (∀ (p sc : Byte) (rest : Bytes) (code : BitVec 4) (info : Word),
      inputBytes s = p :: sc :: rest →
      (s.ilen.toNat < 2 + sc.toNat ∧ code = 4 ∧ info = 2 ∨
        2 + sc.toNat ≤ s.ilen.toNat ∧ 7 < p.toNat ∧ code = 4 ∧ info = 3 ∨
        2 + sc.toNat ≤ s.ilen.toNat ∧ p.toNat ≤ 7 ∧ s.dbufCap < s.ilen.toNat - 2 - sc.toNat ∧
          code = 8 ∧ info = 0) →
      ∃ t, exec .frombytes s = .next t ∧ ReportsError code info 0x08 t ∧ t.pad = 0 ∧
        t.tlen = 0 ∧ t.dlen = 0 ∧ NothingSpecified t.tbuf ∧ NothingSpecified t.dbuf ∧
        KeepsRank s t ∧ KeepsTree s t ∧ KeepsTable s t ∧ KeepsInput s t ∧ KeepsOutput s t) ∧
    (∀ (p sc : Byte) (rest : Bytes), inputBytes s = p :: sc :: rest →
      2 + sc.toNat ≤ s.ilen.toNat → p.toNat ≤ 7 →
      s.ilen.toNat - 2 - sc.toNat ≤ s.dbufCap →
      ∃ t, exec .frombytes s = .next t ∧ ReportsSuccess 0x08 t ∧ t.pad.toNat = p.toNat ∧
        treeBytes t = sc :: rest.take sc.toNat ∧ packedBytes t = rest.drop sc.toNat ∧
        t.tlen.toNat = 1 + sc.toNat ∧ t.dlen.toNat = s.ilen.toNat - 2 - sc.toNat ∧
        SameFrom t.tlen.toNat s.tbuf t.tbuf ∧ SameFrom t.dlen.toNat s.dbuf t.dbuf ∧
        KeepsRank s t ∧ KeepsTree s t ∧ KeepsTable s t ∧ KeepsInput s t ∧ KeepsOutput s t)

/-- R186, inferred, on the machine: TOBYTES, MOVE, FROMBYTES restores the three parts of the
container. `t'` is any state whose input is what TOBYTES wrote. -/
def Obligations.FrombytesAfterTobytesRestoresTheParts : Prop :=
  ∀ (s t t' u : State) (c : Byte) (syms : Bytes),
    CapsInRange s → treeBytes s = c :: syms → syms.length = c.toNat →
    exec .tobytes s = .next t → t.statusDone = true → inputBytes t' = outputBytes t →
    s.dlen.toNat ≤ t'.dbufCap → exec .frombytes t' = .next u →
    u.statusDone = true ∧ u.pad = s.pad ∧ treeBytes u = treeBytes s ∧
      packedBytes u = packedBytes s

/-! ## Decoder (46_decoder.md) -/

/-- R196, R197: the walk stays at a level of the tree, emits leaves only and no more than one a bit,
and on a two-symbol tree always completes a symbol. -/
def Obligations.WalkStaysInTheTree : Prop :=
  ∀ (syms : Bytes) (bits : Bits), 2 ≤ syms.length →
    (walk syms bits).2 ≤ syms.length - 2 ∧ (walk syms bits).1.length ≤ bits.length ∧
    (∀ b, b ∈ (walk syms bits).1 → b ∈ syms) ∧
    (syms.length = 2 → (walk syms bits).2 = 0 ∧ (walk syms bits).1.length = bits.length)

/-- R200, inferred: the walker inverts the coder. -/
def Obligations.WalkInvertsTheCoder : Prop :=
  ∀ (r buf : Bytes) (t : CodeTree) (table : CodeTable),
    r.Nodup → buildTree r = .ok t → deriveTable t = .ok table → (∀ b, b ∈ buf → b ∈ r) →
    ∃ bits, codeBits table.codeOf buf = .ok bits ∧ walk (leaves t) bits = (buf, 0)

/-- R198, R61: WALK, with its four errors in their order, and with data that it decodes. That a
success leaves the bytes of OBUF beyond its result as they were is R61 as log 10 reads it (DEDUCED).
-/
def Obligations.WalkFollowsItsRule : Prop :=
  ∀ (s : State) (out : Bytes) (level : Nat),
    walk (leafList s) (unpack (packedBytes s) (8 * s.dlen.toNat - s.pad.toNat)) = (out, level) →
    (∀ (code : BitVec 4) (info : Word),
      (s.vTree = false ∧ code = 9 ∧ info = 0 ∨
        s.vTree = true ∧ 8 * s.dlen.toNat < s.pad.toNat ∧ code = 4 ∧ info = 4 ∨
        s.vTree = true ∧ s.pad.toNat ≤ 8 * s.dlen.toNat ∧ level ≠ 0 ∧ code = 5 ∧
          info = BitVec.ofNat 32 level ∨
        s.vTree = true ∧ s.pad.toNat ≤ 8 * s.dlen.toNat ∧ level = 0 ∧
          s.obufCap < out.length ∧ code = 8 ∧ info = 0) →
      ∃ t, exec .walk s = .next t ∧ ReportsError code info 0x09 t ∧ t.olen = 0 ∧
        NothingSpecified t.obuf ∧ KeepsRank s t ∧ KeepsTree s t ∧ KeepsTable s t ∧
        KeepsInput s t ∧ KeepsTreeBytes s t ∧ KeepsPacked s t) ∧
    (s.vTree = true → s.pad.toNat ≤ 8 * s.dlen.toNat → level = 0 → CapsInRange s →
      out.length ≤ s.obufCap →
      ∃ t, exec .walk s = .next t ∧ ReportsSuccess 0x09 t ∧ outputBytes t = out ∧
        t.olen.toNat = out.length ∧ SameFrom t.olen.toNat s.obuf t.obuf ∧ KeepsRank s t ∧
        KeepsTree s t ∧ KeepsTable s t ∧ KeepsInput s t ∧ KeepsTreeBytes s t ∧ KeepsPacked s t)

/-! ## The data flows (47_composite.md) -/

/-- R210: ENCODE and DECODE are their stages issued one by one, stopping at the first error. -/
def Obligations.CompositesAreTheirStagesInOrder : Prop :=
  ∀ s : State,
    exec .encode s =
      runUntilError [.clear, .rank, .build, .derive, .pack, .ser, .tobytes] s ∧
    exec .decode s = runUntilError [.clear, .frombytes, .deser, .walk] s

/-- R212, inferred: a successful ENCODE leaves the container of `encode`, and the sizes and files of
its parts. The last two hypotheses say that the container fits OBUF and the packed data DBUF. -/
def Obligations.EncodeLeavesTheContainer : Prop :=
  ∀ (s : State) (c r : Bytes),
    CapsInRange s → encodeBuffer (inputBytes s) = .ok c → rankOrder (inputBytes s) = .ok r →
    c.length ≤ s.obufCap → c.length - 2 - r.length ≤ s.dbufCap →
    ∃ t, exec .encode s = .next t ∧ ReportsSuccess 0x07 t ∧ outputBytes t = c ∧
      rankList t = r ∧ leafList t = r ∧ t.n.toNat = r.length ∧ t.tn.toNat = r.length ∧
      t.vRank = true ∧ t.vTree = true ∧ t.vCw = true ∧ t.tlen.toNat = 1 + r.length ∧
      t.olen.toNat = 2 + r.length + t.dlen.toNat ∧
      c = BitVec.ofNat 8 t.pad.toNat :: BitVec.ofNat 8 r.length :: (r ++ packedBytes t) ∧
      KeepsInput s t

/-- R213, inferred: the failing cases of ENCODE with the stage, the error and the state they leave.
`bits` are the coded bits and `size` is the length of the packed data. -/
def Obligations.EncodeReportsItsFailures : Prop :=
  ∀ (s : State) (r : Bytes) (bits : Bits) (size : Nat),
    CapsInRange s → IsRankOrder (inputBytes s) r → bits = codedBits r (inputBytes s) →
    size = (bits.length + 7) / 8 →
    (r.length = 0 →
      ∃ t, exec .encode s = .next t ∧ ReportsError 1 0 0x01 t ∧ RankInvalid t ∧ TreeInvalid t ∧
        t.vCw = false ∧ t.tlen = 0 ∧ t.dlen = 0 ∧ t.pad = 0 ∧ t.olen = 0 ∧ KeepsInput s t) ∧
    (r.length = 1 →
      ∃ t, exec .encode s = .next t ∧ ReportsError 2 1 0x02 t ∧ HoldsRank r t ∧ t.n = 1 ∧
        TreeInvalid t ∧ t.vCw = false ∧ t.tlen = 0 ∧ t.dlen = 0 ∧ t.pad = 0 ∧ t.olen = 0 ∧
        KeepsInput s t) ∧
    (2 ≤ r.length → s.dbufCap < size →
      ∃ t, exec .encode s = .next t ∧ ReportsError 8 0 0x04 t ∧ HoldsRank r t ∧ HoldsTree r t ∧
        HoldsTable r t ∧ t.tlen = 0 ∧ t.dlen = 0 ∧ t.pad = 0 ∧ t.olen = 0 ∧ KeepsInput s t) ∧
    (r.length = 256 → size ≤ s.dbufCap →
      ∃ t, exec .encode s = .next t ∧ ReportsError 7 256 0x05 t ∧ HoldsRank r t ∧
        HoldsTree r t ∧ HoldsTable r t ∧ HoldsPacked bits t ∧ t.tlen = 0 ∧ t.olen = 0 ∧
        KeepsInput s t) ∧
    (2 ≤ r.length → r.length ≤ 255 → size ≤ s.dbufCap → s.obufCap < 2 + r.length + size →
      ∃ t, exec .encode s = .next t ∧ ReportsError 8 0 0x07 t ∧ HoldsRank r t ∧ HoldsTree r t ∧
        HoldsTable r t ∧ HoldsPacked bits t ∧ t.tlen.toNat = 1 + r.length ∧
        treeBytes t = BitVec.ofNat 8 r.length :: r ∧ t.olen = 0 ∧ KeepsInput s t)

/-- R216, inferred: a successful DECODE leaves the bytes of `decode`. The last two hypotheses say
that the packed data fits DBUF and the output OBUF. -/
def Obligations.DecodeLeavesTheOutput : Prop :=
  ∀ (s : State) (c : Container) (out : Bytes),
    CapsInRange s → decodeContainer (inputBytes s) = .ok out → fromBytes (inputBytes s) = .ok c →
    c.packedData.length ≤ s.dbufCap → out.length ≤ s.obufCap →
    ∃ t, exec .decode s = .next t ∧ ReportsSuccess 0x09 t ∧ outputBytes t = out ∧
      t.vRank = true ∧ t.vTree = true ∧ t.vCw = false ∧ t.pad.toNat = c.padding.toNat ∧
      treeBytes t = c.serializedTree ∧ packedBytes t = c.packedData ∧
      leafList t = c.serializedTree.tail ∧ KeepsInput s t

/-- R217, inferred: the failing cases of DECODE, in the order the stages meet them. -/
def Obligations.DecodeReportsItsFailures : Prop :=
  ∀ s : State,
    (s.ilen.toNat < 2 →
      ∃ t, exec .decode s = .next t ∧ ReportsError 4 1 0x08 t ∧ t.olen = 0 ∧ KeepsInput s t) ∧
    (∀ (p sc : Byte) (rest syms data out : Bytes) (level : Nat) (code : BitVec 4) (info : Word)
      (op : BitVec 8),
      inputBytes s = p :: sc :: rest → syms = rest.take sc.toNat → data = rest.drop sc.toNat →
      walk syms (unpack data (8 * data.length - p.toNat)) = (out, level) →
      (rest.length < sc.toNat ∧ code = 4 ∧ info = 2 ∧ op = 0x08 ∨
        sc.toNat ≤ rest.length ∧ 7 < p.toNat ∧ code = 4 ∧ info = 3 ∧ op = 0x08 ∨
        sc.toNat ≤ rest.length ∧ p.toNat ≤ 7 ∧ s.dbufCap < data.length ∧ code = 8 ∧ info = 0 ∧
          op = 0x08 ∨
        sc.toNat ≤ rest.length ∧ p.toNat ≤ 7 ∧ data.length ≤ s.dbufCap ∧ sc.toNat < 2 ∧
          code = 2 ∧ info = BitVec.ofNat 32 sc.toNat ∧ op = 0x06 ∨
        sc.toNat ≤ rest.length ∧ p.toNat ≤ 7 ∧ data.length ≤ s.dbufCap ∧ 2 ≤ sc.toNat ∧
          data = [] ∧ 0 < p.toNat ∧ code = 4 ∧ info = 4 ∧ op = 0x09 ∨
        sc.toNat ≤ rest.length ∧ p.toNat ≤ 7 ∧ data.length ≤ s.dbufCap ∧ 2 ≤ sc.toNat ∧
          p.toNat ≤ 8 * data.length ∧ level ≠ 0 ∧ code = 5 ∧ info = BitVec.ofNat 32 level ∧
          op = 0x09 ∨
        sc.toNat ≤ rest.length ∧ p.toNat ≤ 7 ∧ data.length ≤ s.dbufCap ∧ 2 ≤ sc.toNat ∧
          p.toNat ≤ 8 * data.length ∧ level = 0 ∧ s.obufCap < out.length ∧ code = 8 ∧
          info = 0 ∧ op = 0x09) →
      ∃ t, exec .decode s = .next t ∧ ReportsError code info op t ∧ t.olen = 0 ∧
        KeepsInput s t)

/-- R106, inferred: the sizes of what an encoder produces. -/
def Obligations.EncodedSizesAreBounded : Prop :=
  ∀ buf r c : Bytes, IsRankOrder buf r → encodeBuffer buf = .ok c →
    c.length = 2 + r.length + ((codedBits r buf).length + 7) / 8 ∧
    buf.length ≤ (codedBits r buf).length ∧
    (codedBits r buf).length ≤ (r.length - 1) * buf.length

/-- R218, inferred: every buffer of 2 to 255 distinct byte values encodes, and decoding gives it
back. -/
def Obligations.DecodeUndoesEncode : Prop :=
  ∀ buf r : Bytes, IsRankOrder buf r → 2 ≤ r.length → r.length ≤ 255 →
    ∃ c, encodeBuffer buf = .ok c ∧ decodeContainer c = .ok buf

/-- R218, inferred, on the machine: ENCODE, MOVE, DECODE gives the input back. `t'` is any state
whose input is what ENCODE wrote and whose buffers take the data and the output. -/
def Obligations.DecodeAfterEncodeRestoresTheInput : Prop :=
  ∀ s t t' : State,
    CapsInRange s → exec .encode s = .next t → t.statusDone = true →
    inputBytes t' = outputBytes t → CapsInRange t' → t.dlen.toNat ≤ t'.dbufCap →
    (inputBytes s).length ≤ t'.obufCap →
    ∃ u, exec .decode t' = .next u ∧ u.statusDone = true ∧ outputBytes u = inputBytes s

/-- R46, and R212 and R216, inferred: what ENCODE and DECODE leave of the report, the flags, the
lengths, the files and the buffers' contents below their lengths depends on the input and the
capacities alone. -/
def Obligations.CompositesDependOnTheInputAlone : Prop :=
  ∀ (i : Instr) (s s' t t' : State),
    (i = .encode ∨ i = .decode) → inputBytes s = inputBytes s' → s.obufCap = s'.obufCap →
    s.dbufCap = s'.dbufCap → exec i s = .next t → exec i s' = .next t' →
    KeepsReport t t' ∧
    (t'.vRank = t.vRank ∧ t'.vTree = t.vTree ∧ t'.vCw = t.vCw ∧ t'.n = t.n ∧ t'.tn = t.tn) ∧
    (t'.tlen = t.tlen ∧ t'.dlen = t.dlen ∧ t'.pad = t.pad ∧ t'.olen = t.olen) ∧
    (rankList t' = rankList t ∧ leafList t' = leafList t ∧
      (t.vCw = true → ∀ sym, codeword t' sym = codeword t sym)) ∧
    treeBytes t' = treeBytes t ∧ packedBytes t' = packedBytes t ∧ outputBytes t' = outputBytes t
end

