-- ==== Sys2Proof/Laws/State.lean ====
section
/-! SUPPORT. One lemma per field per named update of the state, true by rfl, so that no proof unfolds a
record update. -/
namespace Sys2Proof.Machine

/-! ### The error entry (R245): the four report registers and nothing else. -/

@[simp] theorem reportError_lastCmd (s : State) (e : ErrorKind) (info : Word) :
    (s.reportError e info).lastCmd = s.lastCmd := rfl
@[simp] theorem reportError_statusDone (s : State) (e : ErrorKind) (info : Word) :
    (s.reportError e info).statusDone = false := rfl
@[simp] theorem reportError_statusErr (s : State) (e : ErrorKind) (info : Word) :
    (s.reportError e info).statusErr = true := rfl
@[simp] theorem reportError_errCode (s : State) (e : ErrorKind) (info : Word) :
    (s.reportError e info).errCode = e.code := rfl
@[simp] theorem reportError_stage (s : State) (e : ErrorKind) (info : Word) :
    (s.reportError e info).stage = s.stage := rfl
@[simp] theorem reportError_errInfo (s : State) (e : ErrorKind) (info : Word) :
    (s.reportError e info).errInfo = info := rfl
@[simp] theorem reportError_vRank (s : State) (e : ErrorKind) (info : Word) :
    (s.reportError e info).vRank = s.vRank := rfl
@[simp] theorem reportError_vTree (s : State) (e : ErrorKind) (info : Word) :
    (s.reportError e info).vTree = s.vTree := rfl
@[simp] theorem reportError_vCw (s : State) (e : ErrorKind) (info : Word) :
    (s.reportError e info).vCw = s.vCw := rfl
@[simp] theorem reportError_ilen (s : State) (e : ErrorKind) (info : Word) :
    (s.reportError e info).ilen = s.ilen := rfl
@[simp] theorem reportError_olen (s : State) (e : ErrorKind) (info : Word) :
    (s.reportError e info).olen = s.olen := rfl
@[simp] theorem reportError_tlen (s : State) (e : ErrorKind) (info : Word) :
    (s.reportError e info).tlen = s.tlen := rfl
@[simp] theorem reportError_dlen (s : State) (e : ErrorKind) (info : Word) :
    (s.reportError e info).dlen = s.dlen := rfl
@[simp] theorem reportError_pad (s : State) (e : ErrorKind) (info : Word) :
    (s.reportError e info).pad = s.pad := rfl
@[simp] theorem reportError_n (s : State) (e : ErrorKind) (info : Word) :
    (s.reportError e info).n = s.n := rfl
@[simp] theorem reportError_tn (s : State) (e : ErrorKind) (info : Word) :
    (s.reportError e info).tn = s.tn := rfl
@[simp] theorem reportError_sel (s : State) (e : ErrorKind) (info : Word) :
    (s.reportError e info).sel = s.sel := rfl
@[simp] theorem reportError_ibufCap (s : State) (e : ErrorKind) (info : Word) :
    (s.reportError e info).ibufCap = s.ibufCap := rfl
@[simp] theorem reportError_obufCap (s : State) (e : ErrorKind) (info : Word) :
    (s.reportError e info).obufCap = s.obufCap := rfl
@[simp] theorem reportError_dbufCap (s : State) (e : ErrorKind) (info : Word) :
    (s.reportError e info).dbufCap = s.dbufCap := rfl
@[simp] theorem reportError_ibuf (s : State) (e : ErrorKind) (info : Word) :
    (s.reportError e info).ibuf = s.ibuf := rfl
@[simp] theorem reportError_obuf (s : State) (e : ErrorKind) (info : Word) :
    (s.reportError e info).obuf = s.obuf := rfl
@[simp] theorem reportError_tbuf (s : State) (e : ErrorKind) (info : Word) :
    (s.reportError e info).tbuf = s.tbuf := rfl
@[simp] theorem reportError_dbuf (s : State) (e : ErrorKind) (info : Word) :
    (s.reportError e info).dbuf = s.dbuf := rfl
@[simp] theorem reportError_rank (s : State) (e : ErrorKind) (info : Word) :
    (s.reportError e info).rank = s.rank := rfl
@[simp] theorem reportError_tsym (s : State) (e : ErrorKind) (info : Word) :
    (s.reportError e info).tsym = s.tsym := rfl
@[simp] theorem reportError_cwlen (s : State) (e : ErrorKind) (info : Word) :
    (s.reportError e info).cwlen = s.cwlen := rfl
@[simp] theorem reportError_cwbits (s : State) (e : ErrorKind) (info : Word) :
    (s.reportError e info).cwbits = s.cwbits := rfl
@[simp] theorem reportError_pending (s : State) (e : ErrorKind) (info : Word) :
    (s.reportError e info).pending = s.pending := rfl
@[simp] theorem reportError_readData (s : State) (e : ErrorKind) (info : Word) :
    (s.reportError e info).readData = s.readData := rfl
@[simp] theorem reportError_accesses (s : State) (e : ErrorKind) (info : Word) :
    (s.reportError e info).accesses = s.accesses := rfl

/-! ### The success exit (R244). -/

@[simp] theorem reportSuccess_lastCmd (s : State) :
    s.reportSuccess.lastCmd = s.lastCmd := rfl
@[simp] theorem reportSuccess_statusDone (s : State) :
    s.reportSuccess.statusDone = true := rfl
@[simp] theorem reportSuccess_statusErr (s : State) :
    s.reportSuccess.statusErr = false := rfl
@[simp] theorem reportSuccess_errCode (s : State) :
    s.reportSuccess.errCode = 0 := rfl
@[simp] theorem reportSuccess_stage (s : State) :
    s.reportSuccess.stage = s.stage := rfl
@[simp] theorem reportSuccess_errInfo (s : State) :
    s.reportSuccess.errInfo = 0 := rfl
@[simp] theorem reportSuccess_vRank (s : State) :
    s.reportSuccess.vRank = s.vRank := rfl
@[simp] theorem reportSuccess_vTree (s : State) :
    s.reportSuccess.vTree = s.vTree := rfl
@[simp] theorem reportSuccess_vCw (s : State) :
    s.reportSuccess.vCw = s.vCw := rfl
@[simp] theorem reportSuccess_ilen (s : State) :
    s.reportSuccess.ilen = s.ilen := rfl
@[simp] theorem reportSuccess_olen (s : State) :
    s.reportSuccess.olen = s.olen := rfl
@[simp] theorem reportSuccess_tlen (s : State) :
    s.reportSuccess.tlen = s.tlen := rfl
@[simp] theorem reportSuccess_dlen (s : State) :
    s.reportSuccess.dlen = s.dlen := rfl
@[simp] theorem reportSuccess_pad (s : State) :
    s.reportSuccess.pad = s.pad := rfl
@[simp] theorem reportSuccess_n (s : State) :
    s.reportSuccess.n = s.n := rfl
@[simp] theorem reportSuccess_tn (s : State) :
    s.reportSuccess.tn = s.tn := rfl
@[simp] theorem reportSuccess_sel (s : State) :
    s.reportSuccess.sel = s.sel := rfl
@[simp] theorem reportSuccess_ibufCap (s : State) :
    s.reportSuccess.ibufCap = s.ibufCap := rfl
@[simp] theorem reportSuccess_obufCap (s : State) :
    s.reportSuccess.obufCap = s.obufCap := rfl
@[simp] theorem reportSuccess_dbufCap (s : State) :
    s.reportSuccess.dbufCap = s.dbufCap := rfl
@[simp] theorem reportSuccess_ibuf (s : State) :
    s.reportSuccess.ibuf = s.ibuf := rfl
@[simp] theorem reportSuccess_obuf (s : State) :
    s.reportSuccess.obuf = s.obuf := rfl
@[simp] theorem reportSuccess_tbuf (s : State) :
    s.reportSuccess.tbuf = s.tbuf := rfl
@[simp] theorem reportSuccess_dbuf (s : State) :
    s.reportSuccess.dbuf = s.dbuf := rfl
@[simp] theorem reportSuccess_rank (s : State) :
    s.reportSuccess.rank = s.rank := rfl
@[simp] theorem reportSuccess_tsym (s : State) :
    s.reportSuccess.tsym = s.tsym := rfl
@[simp] theorem reportSuccess_cwlen (s : State) :
    s.reportSuccess.cwlen = s.cwlen := rfl
@[simp] theorem reportSuccess_cwbits (s : State) :
    s.reportSuccess.cwbits = s.cwbits := rfl
@[simp] theorem reportSuccess_pending (s : State) :
    s.reportSuccess.pending = s.pending := rfl
@[simp] theorem reportSuccess_readData (s : State) :
    s.reportSuccess.readData = s.readData := rfl
@[simp] theorem reportSuccess_accesses (s : State) :
    s.reportSuccess.accesses = s.accesses := rfl

/-! ### A stage's first action (R37). -/

@[simp] theorem startStage_lastCmd (s : State) (op : BitVec 8) :
    (s.startStage op).lastCmd = s.lastCmd := rfl
@[simp] theorem startStage_statusDone (s : State) (op : BitVec 8) :
    (s.startStage op).statusDone = s.statusDone := rfl
@[simp] theorem startStage_statusErr (s : State) (op : BitVec 8) :
    (s.startStage op).statusErr = s.statusErr := rfl
@[simp] theorem startStage_errCode (s : State) (op : BitVec 8) :
    (s.startStage op).errCode = s.errCode := rfl
@[simp] theorem startStage_stage (s : State) (op : BitVec 8) :
    (s.startStage op).stage = op := rfl
@[simp] theorem startStage_errInfo (s : State) (op : BitVec 8) :
    (s.startStage op).errInfo = s.errInfo := rfl
@[simp] theorem startStage_vRank (s : State) (op : BitVec 8) :
    (s.startStage op).vRank = s.vRank := rfl
@[simp] theorem startStage_vTree (s : State) (op : BitVec 8) :
    (s.startStage op).vTree = s.vTree := rfl
@[simp] theorem startStage_vCw (s : State) (op : BitVec 8) :
    (s.startStage op).vCw = s.vCw := rfl
@[simp] theorem startStage_ilen (s : State) (op : BitVec 8) :
    (s.startStage op).ilen = s.ilen := rfl
@[simp] theorem startStage_olen (s : State) (op : BitVec 8) :
    (s.startStage op).olen = s.olen := rfl
@[simp] theorem startStage_tlen (s : State) (op : BitVec 8) :
    (s.startStage op).tlen = s.tlen := rfl
@[simp] theorem startStage_dlen (s : State) (op : BitVec 8) :
    (s.startStage op).dlen = s.dlen := rfl
@[simp] theorem startStage_pad (s : State) (op : BitVec 8) :
    (s.startStage op).pad = s.pad := rfl
@[simp] theorem startStage_n (s : State) (op : BitVec 8) :
    (s.startStage op).n = s.n := rfl
@[simp] theorem startStage_tn (s : State) (op : BitVec 8) :
    (s.startStage op).tn = s.tn := rfl
@[simp] theorem startStage_sel (s : State) (op : BitVec 8) :
    (s.startStage op).sel = s.sel := rfl
@[simp] theorem startStage_ibufCap (s : State) (op : BitVec 8) :
    (s.startStage op).ibufCap = s.ibufCap := rfl
@[simp] theorem startStage_obufCap (s : State) (op : BitVec 8) :
    (s.startStage op).obufCap = s.obufCap := rfl
@[simp] theorem startStage_dbufCap (s : State) (op : BitVec 8) :
    (s.startStage op).dbufCap = s.dbufCap := rfl
@[simp] theorem startStage_ibuf (s : State) (op : BitVec 8) :
    (s.startStage op).ibuf = s.ibuf := rfl
@[simp] theorem startStage_obuf (s : State) (op : BitVec 8) :
    (s.startStage op).obuf = s.obuf := rfl
@[simp] theorem startStage_tbuf (s : State) (op : BitVec 8) :
    (s.startStage op).tbuf = s.tbuf := rfl
@[simp] theorem startStage_dbuf (s : State) (op : BitVec 8) :
    (s.startStage op).dbuf = s.dbuf := rfl
@[simp] theorem startStage_rank (s : State) (op : BitVec 8) :
    (s.startStage op).rank = s.rank := rfl
@[simp] theorem startStage_tsym (s : State) (op : BitVec 8) :
    (s.startStage op).tsym = s.tsym := rfl
@[simp] theorem startStage_cwlen (s : State) (op : BitVec 8) :
    (s.startStage op).cwlen = s.cwlen := rfl
@[simp] theorem startStage_cwbits (s : State) (op : BitVec 8) :
    (s.startStage op).cwbits = s.cwbits := rfl
@[simp] theorem startStage_pending (s : State) (op : BitVec 8) :
    (s.startStage op).pending = s.pending := rfl
@[simp] theorem startStage_readData (s : State) (op : BitVec 8) :
    (s.startStage op).readData = s.readData := rfl
@[simp] theorem startStage_accesses (s : State) (op : BitVec 8) :
    (s.startStage op).accesses = s.accesses := rfl

/-! ### InvalidateCW (R45). -/

@[simp] theorem invalidateCw_lastCmd (s : State) :
    s.invalidateCw.lastCmd = s.lastCmd := rfl
@[simp] theorem invalidateCw_statusDone (s : State) :
    s.invalidateCw.statusDone = s.statusDone := rfl
@[simp] theorem invalidateCw_statusErr (s : State) :
    s.invalidateCw.statusErr = s.statusErr := rfl
@[simp] theorem invalidateCw_errCode (s : State) :
    s.invalidateCw.errCode = s.errCode := rfl
@[simp] theorem invalidateCw_stage (s : State) :
    s.invalidateCw.stage = s.stage := rfl
@[simp] theorem invalidateCw_errInfo (s : State) :
    s.invalidateCw.errInfo = s.errInfo := rfl
@[simp] theorem invalidateCw_vRank (s : State) :
    s.invalidateCw.vRank = s.vRank := rfl
@[simp] theorem invalidateCw_vTree (s : State) :
    s.invalidateCw.vTree = s.vTree := rfl
@[simp] theorem invalidateCw_vCw (s : State) :
    s.invalidateCw.vCw = false := rfl
@[simp] theorem invalidateCw_ilen (s : State) :
    s.invalidateCw.ilen = s.ilen := rfl
@[simp] theorem invalidateCw_olen (s : State) :
    s.invalidateCw.olen = s.olen := rfl
@[simp] theorem invalidateCw_tlen (s : State) :
    s.invalidateCw.tlen = s.tlen := rfl
@[simp] theorem invalidateCw_dlen (s : State) :
    s.invalidateCw.dlen = s.dlen := rfl
@[simp] theorem invalidateCw_pad (s : State) :
    s.invalidateCw.pad = s.pad := rfl
@[simp] theorem invalidateCw_n (s : State) :
    s.invalidateCw.n = s.n := rfl
@[simp] theorem invalidateCw_tn (s : State) :
    s.invalidateCw.tn = s.tn := rfl
@[simp] theorem invalidateCw_sel (s : State) :
    s.invalidateCw.sel = s.sel := rfl
@[simp] theorem invalidateCw_ibufCap (s : State) :
    s.invalidateCw.ibufCap = s.ibufCap := rfl
@[simp] theorem invalidateCw_obufCap (s : State) :
    s.invalidateCw.obufCap = s.obufCap := rfl
@[simp] theorem invalidateCw_dbufCap (s : State) :
    s.invalidateCw.dbufCap = s.dbufCap := rfl
@[simp] theorem invalidateCw_ibuf (s : State) :
    s.invalidateCw.ibuf = s.ibuf := rfl
@[simp] theorem invalidateCw_obuf (s : State) :
    s.invalidateCw.obuf = s.obuf := rfl
@[simp] theorem invalidateCw_tbuf (s : State) :
    s.invalidateCw.tbuf = s.tbuf := rfl
@[simp] theorem invalidateCw_dbuf (s : State) :
    s.invalidateCw.dbuf = s.dbuf := rfl
@[simp] theorem invalidateCw_rank (s : State) :
    s.invalidateCw.rank = s.rank := rfl
@[simp] theorem invalidateCw_tsym (s : State) :
    s.invalidateCw.tsym = s.tsym := rfl
@[simp] theorem invalidateCw_cwlen (s : State) :
    s.invalidateCw.cwlen = s.cwlen := rfl
@[simp] theorem invalidateCw_cwbits (s : State) :
    s.invalidateCw.cwbits = s.cwbits := rfl
@[simp] theorem invalidateCw_pending (s : State) :
    s.invalidateCw.pending = s.pending := rfl
@[simp] theorem invalidateCw_readData (s : State) :
    s.invalidateCw.readData = s.readData := rfl
@[simp] theorem invalidateCw_accesses (s : State) :
    s.invalidateCw.accesses = s.accesses := rfl

/-! ### InvalidateTree (R45). -/

@[simp] theorem invalidateTree_lastCmd (s : State) :
    s.invalidateTree.lastCmd = s.lastCmd := rfl
@[simp] theorem invalidateTree_statusDone (s : State) :
    s.invalidateTree.statusDone = s.statusDone := rfl
@[simp] theorem invalidateTree_statusErr (s : State) :
    s.invalidateTree.statusErr = s.statusErr := rfl
@[simp] theorem invalidateTree_errCode (s : State) :
    s.invalidateTree.errCode = s.errCode := rfl
@[simp] theorem invalidateTree_stage (s : State) :
    s.invalidateTree.stage = s.stage := rfl
@[simp] theorem invalidateTree_errInfo (s : State) :
    s.invalidateTree.errInfo = s.errInfo := rfl
@[simp] theorem invalidateTree_vRank (s : State) :
    s.invalidateTree.vRank = s.vRank := rfl
@[simp] theorem invalidateTree_vTree (s : State) :
    s.invalidateTree.vTree = false := rfl
@[simp] theorem invalidateTree_vCw (s : State) :
    s.invalidateTree.vCw = false := rfl
@[simp] theorem invalidateTree_ilen (s : State) :
    s.invalidateTree.ilen = s.ilen := rfl
@[simp] theorem invalidateTree_olen (s : State) :
    s.invalidateTree.olen = s.olen := rfl
@[simp] theorem invalidateTree_tlen (s : State) :
    s.invalidateTree.tlen = s.tlen := rfl
@[simp] theorem invalidateTree_dlen (s : State) :
    s.invalidateTree.dlen = s.dlen := rfl
@[simp] theorem invalidateTree_pad (s : State) :
    s.invalidateTree.pad = s.pad := rfl
@[simp] theorem invalidateTree_n (s : State) :
    s.invalidateTree.n = s.n := rfl
@[simp] theorem invalidateTree_tn (s : State) :
    s.invalidateTree.tn = 0 := rfl
@[simp] theorem invalidateTree_sel (s : State) :
    s.invalidateTree.sel = s.sel := rfl
@[simp] theorem invalidateTree_ibufCap (s : State) :
    s.invalidateTree.ibufCap = s.ibufCap := rfl
@[simp] theorem invalidateTree_obufCap (s : State) :
    s.invalidateTree.obufCap = s.obufCap := rfl
@[simp] theorem invalidateTree_dbufCap (s : State) :
    s.invalidateTree.dbufCap = s.dbufCap := rfl
@[simp] theorem invalidateTree_ibuf (s : State) :
    s.invalidateTree.ibuf = s.ibuf := rfl
@[simp] theorem invalidateTree_obuf (s : State) :
    s.invalidateTree.obuf = s.obuf := rfl
@[simp] theorem invalidateTree_tbuf (s : State) :
    s.invalidateTree.tbuf = s.tbuf := rfl
@[simp] theorem invalidateTree_dbuf (s : State) :
    s.invalidateTree.dbuf = s.dbuf := rfl
@[simp] theorem invalidateTree_rank (s : State) :
    s.invalidateTree.rank = s.rank := rfl
@[simp] theorem invalidateTree_tsym (s : State) :
    s.invalidateTree.tsym = s.tsym := rfl
@[simp] theorem invalidateTree_cwlen (s : State) :
    s.invalidateTree.cwlen = s.cwlen := rfl
@[simp] theorem invalidateTree_cwbits (s : State) :
    s.invalidateTree.cwbits = s.cwbits := rfl
@[simp] theorem invalidateTree_pending (s : State) :
    s.invalidateTree.pending = s.pending := rfl
@[simp] theorem invalidateTree_readData (s : State) :
    s.invalidateTree.readData = s.readData := rfl
@[simp] theorem invalidateTree_accesses (s : State) :
    s.invalidateTree.accesses = s.accesses := rfl

/-! ### InvalidateRank (R45). -/

@[simp] theorem invalidateRank_lastCmd (s : State) :
    s.invalidateRank.lastCmd = s.lastCmd := rfl
@[simp] theorem invalidateRank_statusDone (s : State) :
    s.invalidateRank.statusDone = s.statusDone := rfl
@[simp] theorem invalidateRank_statusErr (s : State) :
    s.invalidateRank.statusErr = s.statusErr := rfl
@[simp] theorem invalidateRank_errCode (s : State) :
    s.invalidateRank.errCode = s.errCode := rfl
@[simp] theorem invalidateRank_stage (s : State) :
    s.invalidateRank.stage = s.stage := rfl
@[simp] theorem invalidateRank_errInfo (s : State) :
    s.invalidateRank.errInfo = s.errInfo := rfl
@[simp] theorem invalidateRank_vRank (s : State) :
    s.invalidateRank.vRank = false := rfl
@[simp] theorem invalidateRank_vTree (s : State) :
    s.invalidateRank.vTree = false := rfl
@[simp] theorem invalidateRank_vCw (s : State) :
    s.invalidateRank.vCw = false := rfl
@[simp] theorem invalidateRank_ilen (s : State) :
    s.invalidateRank.ilen = s.ilen := rfl
@[simp] theorem invalidateRank_olen (s : State) :
    s.invalidateRank.olen = s.olen := rfl
@[simp] theorem invalidateRank_tlen (s : State) :
    s.invalidateRank.tlen = s.tlen := rfl
@[simp] theorem invalidateRank_dlen (s : State) :
    s.invalidateRank.dlen = s.dlen := rfl
@[simp] theorem invalidateRank_pad (s : State) :
    s.invalidateRank.pad = s.pad := rfl
@[simp] theorem invalidateRank_n (s : State) :
    s.invalidateRank.n = 0 := rfl
@[simp] theorem invalidateRank_tn (s : State) :
    s.invalidateRank.tn = 0 := rfl
@[simp] theorem invalidateRank_sel (s : State) :
    s.invalidateRank.sel = s.sel := rfl
@[simp] theorem invalidateRank_ibufCap (s : State) :
    s.invalidateRank.ibufCap = s.ibufCap := rfl
@[simp] theorem invalidateRank_obufCap (s : State) :
    s.invalidateRank.obufCap = s.obufCap := rfl
@[simp] theorem invalidateRank_dbufCap (s : State) :
    s.invalidateRank.dbufCap = s.dbufCap := rfl
@[simp] theorem invalidateRank_ibuf (s : State) :
    s.invalidateRank.ibuf = s.ibuf := rfl
@[simp] theorem invalidateRank_obuf (s : State) :
    s.invalidateRank.obuf = s.obuf := rfl
@[simp] theorem invalidateRank_tbuf (s : State) :
    s.invalidateRank.tbuf = s.tbuf := rfl
@[simp] theorem invalidateRank_dbuf (s : State) :
    s.invalidateRank.dbuf = s.dbuf := rfl
@[simp] theorem invalidateRank_rank (s : State) :
    s.invalidateRank.rank = s.rank := rfl
@[simp] theorem invalidateRank_tsym (s : State) :
    s.invalidateRank.tsym = s.tsym := rfl
@[simp] theorem invalidateRank_cwlen (s : State) :
    s.invalidateRank.cwlen = s.cwlen := rfl
@[simp] theorem invalidateRank_cwbits (s : State) :
    s.invalidateRank.cwbits = s.cwbits := rfl
@[simp] theorem invalidateRank_pending (s : State) :
    s.invalidateRank.pending = s.pending := rfl
@[simp] theorem invalidateRank_readData (s : State) :
    s.invalidateRank.readData = s.readData := rfl
@[simp] theorem invalidateRank_accesses (s : State) :
    s.invalidateRank.accesses = s.accesses := rfl

/-! ### CLEAR before its success exit (R228). -/

@[simp] theorem clearedState_lastCmd (s : State) :
    (clearedState s).lastCmd = s.lastCmd := rfl
@[simp] theorem clearedState_statusDone (s : State) :
    (clearedState s).statusDone = s.statusDone := rfl
@[simp] theorem clearedState_statusErr (s : State) :
    (clearedState s).statusErr = s.statusErr := rfl
@[simp] theorem clearedState_errCode (s : State) :
    (clearedState s).errCode = s.errCode := rfl
@[simp] theorem clearedState_stage (s : State) :
    (clearedState s).stage = 0x0C := rfl
@[simp] theorem clearedState_errInfo (s : State) :
    (clearedState s).errInfo = s.errInfo := rfl
@[simp] theorem clearedState_vRank (s : State) :
    (clearedState s).vRank = false := rfl
@[simp] theorem clearedState_vTree (s : State) :
    (clearedState s).vTree = false := rfl
@[simp] theorem clearedState_vCw (s : State) :
    (clearedState s).vCw = false := rfl
@[simp] theorem clearedState_ilen (s : State) :
    (clearedState s).ilen = s.ilen := rfl
@[simp] theorem clearedState_olen (s : State) :
    (clearedState s).olen = 0 := rfl
@[simp] theorem clearedState_tlen (s : State) :
    (clearedState s).tlen = 0 := rfl
@[simp] theorem clearedState_dlen (s : State) :
    (clearedState s).dlen = 0 := rfl
@[simp] theorem clearedState_pad (s : State) :
    (clearedState s).pad = 0 := rfl
@[simp] theorem clearedState_n (s : State) :
    (clearedState s).n = 0 := rfl
@[simp] theorem clearedState_tn (s : State) :
    (clearedState s).tn = 0 := rfl
@[simp] theorem clearedState_sel (s : State) :
    (clearedState s).sel = s.sel := rfl
@[simp] theorem clearedState_ibufCap (s : State) :
    (clearedState s).ibufCap = s.ibufCap := rfl
@[simp] theorem clearedState_obufCap (s : State) :
    (clearedState s).obufCap = s.obufCap := rfl
@[simp] theorem clearedState_dbufCap (s : State) :
    (clearedState s).dbufCap = s.dbufCap := rfl
@[simp] theorem clearedState_ibuf (s : State) :
    (clearedState s).ibuf = s.ibuf := rfl
@[simp] theorem clearedState_obuf (s : State) :
    (clearedState s).obuf = s.obuf.forget := rfl
@[simp] theorem clearedState_tbuf (s : State) :
    (clearedState s).tbuf = s.tbuf.forget := rfl
@[simp] theorem clearedState_dbuf (s : State) :
    (clearedState s).dbuf = s.dbuf.forget := rfl
@[simp] theorem clearedState_rank (s : State) :
    (clearedState s).rank = s.rank := rfl
@[simp] theorem clearedState_tsym (s : State) :
    (clearedState s).tsym = s.tsym := rfl
@[simp] theorem clearedState_cwlen (s : State) :
    (clearedState s).cwlen = s.cwlen := rfl
@[simp] theorem clearedState_cwbits (s : State) :
    (clearedState s).cwbits = s.cwbits := rfl
@[simp] theorem clearedState_pending (s : State) :
    (clearedState s).pending = s.pending := rfl
@[simp] theorem clearedState_readData (s : State) :
    (clearedState s).readData = s.readData := rfl
@[simp] theorem clearedState_accesses (s : State) :
    (clearedState s).accesses = s.accesses := rfl

/-! ### The reset input's effect (R47, R270). -/

@[simp] theorem resetState_lastCmd (s : State) :
    (resetState s).lastCmd = 0 := rfl
@[simp] theorem resetState_statusDone (s : State) :
    (resetState s).statusDone = false := rfl
@[simp] theorem resetState_statusErr (s : State) :
    (resetState s).statusErr = false := rfl
@[simp] theorem resetState_errCode (s : State) :
    (resetState s).errCode = 0 := rfl
@[simp] theorem resetState_stage (s : State) :
    (resetState s).stage = 0 := rfl
@[simp] theorem resetState_errInfo (s : State) :
    (resetState s).errInfo = 0 := rfl
@[simp] theorem resetState_vRank (s : State) :
    (resetState s).vRank = false := rfl
@[simp] theorem resetState_vTree (s : State) :
    (resetState s).vTree = false := rfl
@[simp] theorem resetState_vCw (s : State) :
    (resetState s).vCw = false := rfl
@[simp] theorem resetState_ilen (s : State) :
    (resetState s).ilen = 0 := rfl
@[simp] theorem resetState_olen (s : State) :
    (resetState s).olen = 0 := rfl
@[simp] theorem resetState_tlen (s : State) :
    (resetState s).tlen = 0 := rfl
@[simp] theorem resetState_dlen (s : State) :
    (resetState s).dlen = 0 := rfl
@[simp] theorem resetState_pad (s : State) :
    (resetState s).pad = 0 := rfl
@[simp] theorem resetState_n (s : State) :
    (resetState s).n = 0 := rfl
@[simp] theorem resetState_tn (s : State) :
    (resetState s).tn = 0 := rfl
@[simp] theorem resetState_sel (s : State) :
    (resetState s).sel = 0 := rfl
@[simp] theorem resetState_ibufCap (s : State) :
    (resetState s).ibufCap = s.ibufCap := rfl
@[simp] theorem resetState_obufCap (s : State) :
    (resetState s).obufCap = s.obufCap := rfl
@[simp] theorem resetState_dbufCap (s : State) :
    (resetState s).dbufCap = s.dbufCap := rfl
@[simp] theorem resetState_ibuf (s : State) :
    (resetState s).ibuf = s.ibuf.forget := rfl
@[simp] theorem resetState_obuf (s : State) :
    (resetState s).obuf = s.obuf.forget := rfl
@[simp] theorem resetState_tbuf (s : State) :
    (resetState s).tbuf = s.tbuf.forget := rfl
@[simp] theorem resetState_dbuf (s : State) :
    (resetState s).dbuf = s.dbuf.forget := rfl
@[simp] theorem resetState_rank (s : State) :
    (resetState s).rank = s.rank := rfl
@[simp] theorem resetState_tsym (s : State) :
    (resetState s).tsym = s.tsym := rfl
@[simp] theorem resetState_cwlen (s : State) :
    (resetState s).cwlen = s.cwlen := rfl
@[simp] theorem resetState_cwbits (s : State) :
    (resetState s).cwbits = s.cwbits := rfl
@[simp] theorem resetState_pending (s : State) :
    (resetState s).pending = s.pending := rfl
@[simp] theorem resetState_readData (s : State) :
    (resetState s).readData = s.readData := rfl
@[simp] theorem resetState_accesses (s : State) :
    (resetState s).accesses = s.accesses := rfl

/-! ### Taking up the host's oldest pending act. -/

@[simp] theorem takeEvent_lastCmd (s : State) (rest : List HostEvent) :
    (takeEvent s rest).lastCmd = s.lastCmd := rfl
@[simp] theorem takeEvent_statusDone (s : State) (rest : List HostEvent) :
    (takeEvent s rest).statusDone = s.statusDone := rfl
@[simp] theorem takeEvent_statusErr (s : State) (rest : List HostEvent) :
    (takeEvent s rest).statusErr = s.statusErr := rfl
@[simp] theorem takeEvent_errCode (s : State) (rest : List HostEvent) :
    (takeEvent s rest).errCode = s.errCode := rfl
@[simp] theorem takeEvent_stage (s : State) (rest : List HostEvent) :
    (takeEvent s rest).stage = s.stage := rfl
@[simp] theorem takeEvent_errInfo (s : State) (rest : List HostEvent) :
    (takeEvent s rest).errInfo = s.errInfo := rfl
@[simp] theorem takeEvent_vRank (s : State) (rest : List HostEvent) :
    (takeEvent s rest).vRank = s.vRank := rfl
@[simp] theorem takeEvent_vTree (s : State) (rest : List HostEvent) :
    (takeEvent s rest).vTree = s.vTree := rfl
@[simp] theorem takeEvent_vCw (s : State) (rest : List HostEvent) :
    (takeEvent s rest).vCw = s.vCw := rfl
@[simp] theorem takeEvent_ilen (s : State) (rest : List HostEvent) :
    (takeEvent s rest).ilen = s.ilen := rfl
@[simp] theorem takeEvent_olen (s : State) (rest : List HostEvent) :
    (takeEvent s rest).olen = s.olen := rfl
@[simp] theorem takeEvent_tlen (s : State) (rest : List HostEvent) :
    (takeEvent s rest).tlen = s.tlen := rfl
@[simp] theorem takeEvent_dlen (s : State) (rest : List HostEvent) :
    (takeEvent s rest).dlen = s.dlen := rfl
@[simp] theorem takeEvent_pad (s : State) (rest : List HostEvent) :
    (takeEvent s rest).pad = s.pad := rfl
@[simp] theorem takeEvent_n (s : State) (rest : List HostEvent) :
    (takeEvent s rest).n = s.n := rfl
@[simp] theorem takeEvent_tn (s : State) (rest : List HostEvent) :
    (takeEvent s rest).tn = s.tn := rfl
@[simp] theorem takeEvent_sel (s : State) (rest : List HostEvent) :
    (takeEvent s rest).sel = s.sel := rfl
@[simp] theorem takeEvent_ibufCap (s : State) (rest : List HostEvent) :
    (takeEvent s rest).ibufCap = s.ibufCap := rfl
@[simp] theorem takeEvent_obufCap (s : State) (rest : List HostEvent) :
    (takeEvent s rest).obufCap = s.obufCap := rfl
@[simp] theorem takeEvent_dbufCap (s : State) (rest : List HostEvent) :
    (takeEvent s rest).dbufCap = s.dbufCap := rfl
@[simp] theorem takeEvent_ibuf (s : State) (rest : List HostEvent) :
    (takeEvent s rest).ibuf = s.ibuf := rfl
@[simp] theorem takeEvent_obuf (s : State) (rest : List HostEvent) :
    (takeEvent s rest).obuf = s.obuf := rfl
@[simp] theorem takeEvent_tbuf (s : State) (rest : List HostEvent) :
    (takeEvent s rest).tbuf = s.tbuf := rfl
@[simp] theorem takeEvent_dbuf (s : State) (rest : List HostEvent) :
    (takeEvent s rest).dbuf = s.dbuf := rfl
@[simp] theorem takeEvent_rank (s : State) (rest : List HostEvent) :
    (takeEvent s rest).rank = s.rank := rfl
@[simp] theorem takeEvent_tsym (s : State) (rest : List HostEvent) :
    (takeEvent s rest).tsym = s.tsym := rfl
@[simp] theorem takeEvent_cwlen (s : State) (rest : List HostEvent) :
    (takeEvent s rest).cwlen = s.cwlen := rfl
@[simp] theorem takeEvent_cwbits (s : State) (rest : List HostEvent) :
    (takeEvent s rest).cwbits = s.cwbits := rfl
@[simp] theorem takeEvent_pending (s : State) (rest : List HostEvent) :
    (takeEvent s rest).pending = rest := rfl
@[simp] theorem takeEvent_readData (s : State) (rest : List HostEvent) :
    (takeEvent s rest).readData = s.readData := rfl
@[simp] theorem takeEvent_accesses (s : State) (rest : List HostEvent) :
    (takeEvent s rest).accesses = s.accesses + 1 := rfl

end Sys2Proof.Machine
end

