-- ==== Sys2Proof/Laws/Exit.lean ====
section
/-! SUPPORT. The two ends of a stage and the early exit of a composite (60_exceptions.md R244, R245,
47_composite.md R210): what each can do, once. -/
namespace Sys2Proof.Machine

@[simp] theorem raise_outcome (e : ErrorKind) (info : Word) (s : State) :
    (raise e info s).outcome = .next (s.reportError e info) := rfl

@[simp] theorem raise_state (e : ErrorKind) (info : Word) (s : State) :
    (raise e info s).state = s.reportError e info := rfl

@[simp] theorem raise_succeeded (e : ErrorKind) (info : Word) (s : State) :
    (raise e info s).succeeded = false := rfl

@[simp] theorem succeed_outcome (s : State) : (succeed s).outcome = .next s.reportSuccess := rfl

@[simp] theorem succeed_state (s : State) : (succeed s).state = s.reportSuccess := rfl

@[simp] theorem succeed_succeeded (s : State) : (succeed s).succeeded = true := rfl

@[simp] theorem andThen_succeed (s : State) (next : State → StageExit) :
    (succeed s).andThen next = next s.reportSuccess := rfl

@[simp] theorem andThen_raise (e : ErrorKind) (info : Word) (s : State)
    (next : State → StageExit) : (raise e info s).andThen next = raise e info s := rfl

/-- All that a sequence of two stages can do: the first raises, or the second runs on what the first
left. -/
theorem andThen_cases (x : StageExit) (next : State → StageExit) :
    (∃ t, x = .error t ∧ x.andThen next = .error t) ∨
      (∃ t, x = .success t ∧ x.andThen next = next t) := by
  cases x with
  | success t => exact .inr ⟨t, rfl, rfl⟩
  | error t => exact .inl ⟨t, rfl, rfl⟩

/-- A command that ends through a stage's exit always completes. -/
theorem outcome_next (x : StageExit) : x.outcome = .next x.state := rfl

end Sys2Proof.Machine
end

