-- ==== Sys2Proof/Laws/Files.lean ====
section
/-! SUPPORT. The laws of register files: what an entry is after a load or a set. -/
namespace Sys2Proof.Machine

/-- All that loading a sequence does: its entries in front, the rest as it was. -/
theorem loadFile_toList (old : Vector Byte 256) (r : Bytes) :
    (loadFile old r).toList = (r ++ old.toList.drop r.length).take 256 := by
  simp [loadFile, Vector.toList]

/-- The part of a file that a sequence was loaded into is the sequence. -/
theorem filePart_loadFile (old : Vector Byte 256) (r : Bytes) (h : r.length ≤ 256) :
    filePart (loadFile old r) r.length = r := by
  rw [filePart, loadFile_toList, List.take_take, Nat.min_eq_left h]
  simp

theorem filePart_length (f : Vector Byte 256) (count : Nat) :
    (filePart f count).length = min count 256 := by
  simp [filePart]

@[simp] theorem fileAt_fileSet_same {α : Type} (f : Vector α 256) (sym : Byte) (v : α) :
    fileAt (fileSet f sym v) sym = v := by
  simp [fileAt, fileSet]

theorem fileAt_fileSet_other {α : Type} (f : Vector α 256) (sym other : Byte) (v : α)
    (h : other ≠ sym) : fileAt (fileSet f sym v) other = fileAt f other := by
  have hne : sym.toNat ≠ other.toNat := fun e => h (BitVec.eq_of_toNat_eq e.symm)
  simp [fileAt, fileSet, hne]

end Sys2Proof.Machine
end

