-- ==== Sys2Proof/Laws/Memory.lean ====
section
/-! SUPPORT. The laws of buffers: what a read gives after a write, and that every operation keeps the
canonical form. -/
namespace Sys2Proof.Machine

/-! ## Lists of cells -/

theorem cellsRead_cellsWrite_same (cells : List Host.Cell) (i : Nat) (v : Byte) :
    cellsRead (cellsWrite cells i v) i = some v := by
  induction cells with
  | nil => simp [cellsWrite, cellsRead]
  | cons c rest ih =>
    obtain ⟨a, b⟩ := c
    by_cases h1 : i < a
    · simp [cellsWrite, cellsRead, h1]
    · by_cases h2 : i = a
      · simp [cellsWrite, cellsRead, h2]
      · simp [cellsWrite, cellsRead, h1, h2, Ne.symm h2, ih]

theorem cellsRead_cellsWrite_other (cells : List Host.Cell) (i j : Nat) (v : Byte) (h : j ≠ i) :
    cellsRead (cellsWrite cells i v) j = cellsRead cells j := by
  induction cells with
  | nil => simp [cellsWrite, cellsRead, Ne.symm h]
  | cons c rest ih =>
    obtain ⟨a, b⟩ := c
    by_cases h1 : i < a
    · simp [cellsWrite, cellsRead, h1, Ne.symm h]
    · by_cases h2 : i = a
      · subst h2; simp [cellsWrite, cellsRead, Ne.symm h]
      · simp [cellsWrite, cellsRead, h1, h2, ih]

/-- The addresses after a write are the old ones and the one written. -/
theorem mem_cellsWrite (cells : List Host.Cell) (i : Nat) (v : Byte) (c : Host.Cell)
    (h : c ∈ cellsWrite cells i v) : c = (i, v) ∨ c ∈ cells := by
  induction cells with
  | nil => simpa [cellsWrite] using h
  | cons d rest ih =>
    obtain ⟨a, b⟩ := d
    by_cases h1 : i < a
    · simpa [cellsWrite, h1] using h
    · by_cases h2 : i = a
      · subst h2
        simp only [cellsWrite, lt_irrefl, if_true, if_false, List.mem_cons] at h ⊢
        rcases h with h | h
        · exact .inl h
        · exact .inr (.inr h)
      · simp only [cellsWrite, h1, h2, if_false, List.mem_cons] at h ⊢
        rcases h with h | h
        · exact .inr (.inl h)
        · rcases ih h with h | h
          · exact .inl h
          · exact .inr (.inr h)

theorem cellsWrite_pairwise (cells : List Host.Cell) (i : Nat) (v : Byte)
    (h : cells.Pairwise (fun a b => a.1 < b.1)) :
    (cellsWrite cells i v).Pairwise (fun a b => a.1 < b.1) := by
  induction cells with
  | nil => simp [cellsWrite]
  | cons d rest ih =>
    obtain ⟨a, b⟩ := d
    obtain ⟨hhead, htail⟩ := List.pairwise_cons.mp h
    by_cases h1 : i < a
    · simp only [cellsWrite, h1, if_true]
      refine List.pairwise_cons.mpr ⟨?_, h⟩
      intro c hc
      rcases List.mem_cons.mp hc with rfl | hc
      · exact h1
      · exact lt_trans h1 (hhead c hc)
    · by_cases h2 : i = a
      · subst h2
        simp only [cellsWrite, lt_irrefl, if_true, if_false]
        exact List.pairwise_cons.mpr ⟨hhead, htail⟩
      · simp only [cellsWrite, h1, h2, if_false]
        refine List.pairwise_cons.mpr ⟨?_, ih htail⟩
        intro c hc
        rcases mem_cellsWrite rest i v c hc with rfl | hc
        · show a < i; omega
        · exact hhead c hc

/-! ## One byte -/

@[simp] theorem read?_write_same (m : Memory) (i : Nat) (v : Byte) :
    (m.write i v).read? i = some v := cellsRead_cellsWrite_same m.cells i v

theorem read?_write_other (m : Memory) (i j : Nat) (v : Byte) (h : j ≠ i) :
    (m.write i v).read? j = m.read? j := cellsRead_cellsWrite_other m.cells i j v h

@[simp] theorem write_epoch (m : Memory) (i : Nat) (v : Byte) : (m.write i v).epoch = m.epoch := rfl

theorem write_wf (m : Memory) (i : Nat) (v : Byte) (h : m.wf) : (m.write i v).wf :=
  cellsWrite_pairwise m.cells i v h

/-! ## A run of bytes -/

@[simp] theorem writeBytes_epoch (m : Memory) (base : Nat) (bytes : Bytes) :
    (m.writeBytes base bytes).epoch = m.epoch := by
  induction bytes generalizing m base with
  | nil => rfl
  | cons b rest ih => simp [Memory.writeBytes, ih]

theorem writeBytes_wf (m : Memory) (base : Nat) (bytes : Bytes) (h : m.wf) :
    (m.writeBytes base bytes).wf := by
  induction bytes generalizing m base with
  | nil => exact h
  | cons b rest ih => exact ih _ _ (write_wf m base b h)

/-- All that a MemWrite does to a read: inside the run it gives the byte stored, outside what was
there. -/
theorem read?_writeBytes (m : Memory) (base : Nat) (bytes : Bytes) (i : Nat) :
    (m.writeBytes base bytes).read? i =
      if base ≤ i ∧ i < base + bytes.length then bytes[i - base]? else m.read? i := by
  induction bytes generalizing m base with
  | nil =>
    have h : ¬(base ≤ i ∧ i < base) := by omega
    simp [Memory.writeBytes, h]
  | cons b rest ih =>
    rw [Memory.writeBytes, ih]
    by_cases h1 : i = base
    · subst h1
      simp
    · rw [read?_write_other m base i b h1]
      by_cases h2 : base + 1 ≤ i ∧ i < base + 1 + rest.length
      · have h3 : base ≤ i ∧ i < base + (b :: rest).length := by
          simp only [List.length_cons]; omega
        have h4 : i - base = i - (base + 1) + 1 := by omega
        rw [if_pos h2, if_pos h3, h4, List.getElem?_cons_succ]
      · have h3 : ¬(base ≤ i ∧ i < base + (b :: rest).length) := by
          simp only [List.length_cons]; omega
        rw [if_neg h2, if_neg h3]

@[simp] theorem forget_read? (m : Memory) (i : Nat) : m.forget.read? i = none := rfl

theorem forget_wf (m : Memory) : m.forget.wf := List.Pairwise.nil

theorem unspecified_wf : Memory.unspecified.wf := List.Pairwise.nil

@[simp] theorem unspecified_read? (i : Nat) : Memory.unspecified.read? i = none := rfl

/-- A specified byte is what a command reads. -/
theorem byte_of_read? (space : Space) (m : Memory) (i : Nat) (b : Byte) (h : m.read? i = some b) :
    m.byte space i = b := by simp [Memory.byte, h]

/-! ## MemRead -/

@[simp] theorem memRead_length (space : Space) (m : Memory) (base count : Nat) :
    (memRead space m base count).length = count := by simp [memRead]

theorem memRead_getElem? (space : Space) (m : Memory) (base count k : Nat) :
    (memRead space m base count)[k]? = if k < count then some (m.byte space (base + k)) else none := by
  by_cases h : k < count <;> simp [memRead, h]

/-- MemRead of what a MemWrite stored. -/
theorem memRead_writeBytes (space : Space) (m : Memory) (base : Nat) (bytes : Bytes) :
    memRead space (m.writeBytes base bytes) base bytes.length = bytes := by
  apply List.ext_getElem?
  intro k
  rw [memRead_getElem?]
  by_cases h : k < bytes.length
  · have h1 : base ≤ base + k ∧ base + k < base + bytes.length := by omega
    have h2 : base + k - base = k := by omega
    rw [if_pos h, List.getElem?_eq_getElem h]
    congr 1
    apply byte_of_read?
    rw [read?_writeBytes, if_pos h1, h2, List.getElem?_eq_getElem h]
  · rw [if_neg h, List.getElem?_eq_none (by omega)]

@[simp] theorem inputBytes_length (s : State) : (inputBytes s).length = s.ilen.toNat := by
  simp [inputBytes]

@[simp] theorem treeBytes_length (s : State) : (treeBytes s).length = s.tlen.toNat := by
  simp [treeBytes]

@[simp] theorem packedBytes_length (s : State) : (packedBytes s).length = s.dlen.toNat := by
  simp [packedBytes]

@[simp] theorem outputBytes_length (s : State) : (outputBytes s).length = s.olen.toNat := by
  simp [outputBytes]

end Sys2Proof.Machine
end

