-- ==== Sys2Proof/Laws/PerInstr.lean ====
section
/-! SUPPORT. The families of statements about every command, one lemma per constructor. -/
namespace Sys2Proof.Laws.EncodedWordWellFormed

/-- A command's word has a zero RSV field and a defined opcode: the checks of WellFormed accept it
(30_encoding.md R90, R92). -/
def Statement (i : Instr) : Prop := CommandWord.wellFormed (encode i) = true

theorem nop : Statement .nop := rfl
theorem rank : Statement .rank := rfl
theorem build : Statement .build := rfl
theorem derive : Statement .derive := rfl
theorem pack : Statement .pack := rfl
theorem ser : Statement .ser := rfl
theorem deser : Statement .deser := rfl
theorem tobytes : Statement .tobytes := rfl
theorem frombytes : Statement .frombytes := rfl
theorem walk : Statement .walk := rfl
theorem encode : Statement .encode := rfl
theorem decode : Statement .decode := rfl
theorem clear : Statement .clear := rfl
theorem sreset : Statement .sreset := rfl

end Sys2Proof.Laws.EncodedWordWellFormed
end

