-- ==== Sys2Proof/Laws/StepCases.lean ====
section
/-! SUPPORT. What one step can do, and what one act of the host can do, each said once. -/
namespace Sys2Proof.Machine

/-- All that a step can do: nothing, with no act pending; or the oldest pending act. -/
theorem step_cases (s : State) :
    (s.pending = [] ∧ step s = .next s) ∨
      (∃ e rest, s.pending = e :: rest ∧ step s = runEvent (takeEvent s rest) e) := by
  cases h : s.pending with
  | nil => exact .inl ⟨rfl, by simp [step, h]⟩
  | cons e rest => exact .inr ⟨e, rest, rfl, by simp [step, h]⟩

/-- All that a CMD write can do: run the command that the word encodes, or enter the error entry. -/
theorem writeCommand_cases (s : State) (w : Word) :
    (∃ i, decode w = .ok i ∧ writeCommand s w = exec i { s with lastCmd := w }) ∨
      (∃ r, decode w = .error r ∧
        writeCommand s w = .next (State.reportError { s with lastCmd := w } .illegalCommand w)) := by
  cases h : decode w with
  | ok i => exact .inl ⟨i, rfl, by simp [writeCommand, h]⟩
  | error r => exact .inr ⟨r, rfl, by simp [writeCommand, h]⟩

/-- All that a write of another register can do, when it answers a next state. -/
theorem hostWrite_cases (s t : State) (r : Nat) (w : Word) (h : hostWrite s r w = .next t) :
    (r = 0 ∧ writeCommand s w = .next t) ∨ (r ≠ 0 ∧ writeRegister s r w = some t) := by
  cases r with
  | zero => exact .inl ⟨rfl, h⟩
  | succ r =>
    refine .inr ⟨Nat.succ_ne_zero r, ?_⟩
    simp only [hostWrite] at h
    split at h
    · simp_all
    · cases h

/-- All that a register read can do, when it answers a next state: the word goes to the host. -/
theorem hostRead_cases (s t : State) (r : Nat) (h : hostRead s r = .next t) :
    ∃ v, readRegister s r = some v ∧ t = { s with readData := s.readData ++ [v] } := by
  simp only [hostRead] at h
  split at h
  · rename_i v hv
    refine ⟨v, hv, ?_⟩
    cases h; rfl
  · cases h

/-- All that an act of the host can do, when it answers a next state. -/
theorem runEvent_cases (s t : State) (e : HostEvent) (h : runEvent s e = .next t) :
    (∃ offset value, hostWrite s (offset / 4) value = .next t ∧ e = .write offset 4 value) ∨
      (∃ offset, hostRead s (offset / 4) = .next t ∧ e = .read offset 4) ∨ t = resetState s := by
  cases e with
  | write offset size value =>
    simp only [runEvent] at h
    split at h
    · rename_i hw
      have hsize : size = 4 := by simp [RegisterAccess.wholeWord] at hw; exact hw.1
      exact .inl ⟨offset, value, h, by rw [hsize]⟩
    · cases h
  | read offset size =>
    simp only [runEvent] at h
    split at h
    · rename_i hw
      have hsize : size = 4 := by simp [RegisterAccess.wholeWord] at hw; exact hw.1
      exact .inr (.inl ⟨offset, h, by rw [hsize]⟩)
    · cases h
  | reset => simp only [runEvent] at h; cases h; exact .inr (.inr rfl)
  | resetDuring w => simp only [runEvent] at h; cases h; exact .inr (.inr rfl)

end Sys2Proof.Machine
end

