-- ==== Sys2Proof/Tests/Slice0.lean ====
section
/-! SUPPORT. The model's own tests: words written out from R90 and R92, the checks of WellFormed, one
step of each command against the vectors of 95_test_vectors.md (named in each comment), and for each
statement with hypotheses a state that meets them. -/
namespace Sys2Proof.Tests

-- One proof at a time: many at once need more threads than the checks' memory limit allows.
set_option Elab.async false

open Sys2Proof Sys2Proof.Machine

/-! ## Small states -/

/-- The reset state with small capacities. -/
def small : State := { State.reset with ibufCap := 32, obufCap := 24, dbufCap := 4 }

/-- A buffer whose first bytes are specified. -/
def buffer (bytes : Bytes) : Memory := Memory.unspecified.writeBytes 0 bytes

def withInput (s : State) (bytes : Bytes) : State :=
  { s with ibuf := buffer bytes, ilen := BitVec.ofNat 32 bytes.length }

def withRank (s : State) (r : Bytes) : State :=
  { s with rank := loadFile s.rank r, n := BitVec.ofNat 9 r.length, vRank := true }

def withTree (s : State) (r : Bytes) : State :=
  { withRank s r with tsym := loadFile s.tsym r, tn := BitVec.ofNat 9 r.length, vTree := true }

/-- A state with a tree and the table of its leaves (`r` distinct). -/
def withTable (s : State) (r : Bytes) : State :=
  { withTree s r with
    cwlen := derivedLengths (chainEntries r), cwbits := derivedBits s.cwbits (chainEntries r),
    vCw := true }

def withTreeBytes (s : State) (bytes : Bytes) : State :=
  { s with tbuf := buffer bytes, tlen := BitVec.ofNat 9 bytes.length }

def withData (s : State) (bytes : Bytes) (pad : BitVec 3) : State :=
  { s with dbuf := buffer bytes, dlen := BitVec.ofNat 32 bytes.length, pad := pad }

def withPending (s : State) (es : List HostEvent) : State := { s with pending := es }

/-- What holds of the next state of an outcome; false of a stop. -/
def nextIs (o : Host.Outcome State Fault Refusal) (p : State → Bool) : Bool :=
  match o with
  | .next t => p t
  | .fault _ => false
  | .refused _ => false

def refusalOf (o : Host.Outcome State Fault Refusal) : Option Refusal :=
  match o with
  | .next _ => none
  | .fault _ => none
  | .refused r => some r

/-- The five report registers: DONE, ERR, ERRCODE, ERRINFO, STAGE. -/
def report (t : State) : Bool × Bool × BitVec 4 × Word × BitVec 8 :=
  (t.statusDone, t.statusErr, t.errCode, t.errInfo, t.stage)

/-! ## Decoding: words from the encoding of R90 and the map of R92 -/

theorem test_decode_nop : decode 0b00000000000000000000000000000000#32 = .ok .nop := by decide
theorem test_decode_rank : decode 0b00000000000000000000000000000001#32 = .ok .rank := by decide
theorem test_decode_build : decode 0b00000000000000000000000000000010#32 = .ok .build := by decide
theorem test_decode_derive : decode 0b00000000000000000000000000000011#32 = .ok .derive := by decide
theorem test_decode_pack : decode 0b00000000000000000000000000000100#32 = .ok .pack := by decide
theorem test_decode_ser : decode 0b00000000000000000000000000000101#32 = .ok .ser := by decide
theorem test_decode_deser : decode 0b00000000000000000000000000000110#32 = .ok .deser := by decide
theorem test_decode_tobytes : decode 0b00000000000000000000000000000111#32 = .ok .tobytes := by
  decide
theorem test_decode_frombytes :
    decode 0b00000000000000000000000000001000#32 = .ok .frombytes := by decide
theorem test_decode_walk : decode 0b00000000000000000000000000001001#32 = .ok .walk := by decide
theorem test_decode_encode : decode 0b00000000000000000000000000001010#32 = .ok .encode := by decide
theorem test_decode_decode : decode 0b00000000000000000000000000001011#32 = .ok .decode := by decide
theorem test_decode_clear : decode 0b00000000000000000000000000001100#32 = .ok .clear := by decide
theorem test_decode_sreset : decode 0b00000000000000000000000000001111#32 = .ok .sreset := by decide
/-- V-X2: ENCODE's opcode with RSV ≠ 0. -/
theorem test_decode_reserved_field : decode 0x10A#32 = .error (.reservedField 1) := by decide
/-- V-X2. -/
theorem test_decode_reserved_opcode : decode 0x0D#32 = .error (.reservedOpcode 0x0D) := by decide
theorem test_table_word : decodeTableWord 32 0x0F = some .sreset := by decide

/-! ## WellFormed: each check refuses an ill-formed term -/

theorem test_rsv_refused : CommandWord.rsvZero 0x10A#32 = false := by decide
theorem test_opcode_refused : CommandWord.opDefined 0x0E#32 = false := by decide
theorem test_command_refused : CommandWord.wellFormed 0x10#32 = false := by decide
theorem test_narrow_access_refused : RegisterAccess.wholeWord 0 2 = false := by decide
theorem test_misaligned_access_refused : RegisterAccess.wholeWord 2 4 = false := by decide
theorem test_reserved_register_refused : RegisterAccess.defined 15 = false := by decide
theorem test_register_20_refused : RegisterAccess.wellFormed 80 4 = false := by decide

/-! ## One step of each command -/

/-- V-X1: NOP keeps the report of a failed command; only CMD changes. -/
theorem test_nop_keeps_report :
    nextIs (step (State.withFetchWord { small with statusErr := true, errCode := 2, lastCmd := 10 }
        32 0x00))
      (fun t => report t = (false, true, 2, 0, 0) ∧ t.lastCmd = 0) = true := by decide

/-- V-R6: equal counts rank by ascending unsigned value. -/
theorem test_rank_ties_ascend :
    nextIs (exec .rank (withInput small [0x80, 0x7F]))
      (fun t => rankList t = [0x7F, 0x80] ∧ t.n = 2 ∧ t.vRank ∧ report t = (true, false, 0, 0, 1)) =
      true := by decide +kernel

/-- V-R1 and V-R10: counts come first; a later file becomes invalid. -/
theorem test_rank_counts_descend :
    nextIs (exec .rank (withInput (withTree small [1, 2]) [0x62, 0x62, 0x61]))
      (fun t => rankList t = [0x62, 0x61] ∧ t.vTree = false ∧ t.tn = 0) = true := by decide +kernel

/-- V-B2. -/
theorem test_build_copies_the_order :
    nextIs (exec .build (withRank small [0x61, 0x62, 0x72, 0x63, 0x64]))
      (fun t => leafList t = [0x61, 0x62, 0x72, 0x63, 0x64] ∧ t.tn = 5 ∧ t.vTree) = true := by
  decide +kernel

/-- V-B3. -/
theorem test_build_rejects_one_symbol :
    nextIs (exec .build (withRank small [0x61]))
      (fun t => report t = (false, true, 2, 1, 2) ∧ t.vRank ∧ t.tn = 0) = true := by decide +kernel

/-- V-T2: a `0`, r `110`, d `1111`; z absent. -/
theorem test_derive_codewords :
    nextIs (exec .derive (withTree small [0x61, 0x62, 0x72, 0x63, 0x64]))
      (fun t => codeword t 0x61 = some [false] ∧ codeword t 0x72 = some [true, true, false] ∧
        codeword t 0x64 = some [true, true, true, true] ∧ codeword t 0x7A = none) = true := by
  decide +kernel

/-- V-T6. -/
theorem test_derive_rejects_a_repeat :
    nextIs (exec .derive (withTree small [0x61, 0x61]))
      (fun t => report t = (false, true, 11, 0x61, 3) ∧ t.vTree ∧ t.vCw = false) = true := by
  decide +kernel

/-- V-P10: "dad" is `1111 0 1111`. -/
theorem test_pack_nine_bits :
    nextIs (exec .pack (withInput (withTable small [0x61, 0x62, 0x72, 0x63, 0x64])
        [0x64, 0x61, 0x64]))
      (fun t => packedBytes t = [0xF7, 0x80] ∧ t.dlen = 2 ∧ t.pad = 7) = true := by decide +kernel

/-- V-P11: "dax". -/
theorem test_pack_unknown_symbol :
    nextIs (exec .pack (withInput (withTable small [0x61, 0x62, 0x72, 0x63, 0x64])
        [0x64, 0x61, 0x78]))
      (fun t => report t = (false, true, 6, 2, 4) ∧ t.dlen = 0 ∧ t.pad = 0 ∧ t.vCw) = true := by
  decide +kernel

/-- V-S1, with three symbols. -/
theorem test_ser_count_and_symbols :
    nextIs (exec .ser (withTree small [0x61, 0x62, 0x72]))
      (fun t => treeBytes t = [3, 0x61, 0x62, 0x72] ∧ t.tlen = 4 ∧
        report t = (true, false, 0, 0, 5)) = true := by decide +kernel

/-- V-S8: the byte after the symbols is not read. -/
theorem test_deser_ignores_the_rest :
    nextIs (exec .deser (withTreeBytes small [2, 0x61, 0x62, 0x99]))
      (fun t => leafList t = [0x61, 0x62] ∧ rankList t = [0x61, 0x62] ∧ t.tn = 2) = true := by
  decide +kernel

/-- V-S6: one symbol is ranked but not built. -/
theorem test_deser_rejects_one_symbol :
    nextIs (exec .deser (withTreeBytes small [1, 0x61]))
      (fun t => report t = (false, true, 2, 1, 6) ∧ rankList t = [0x61] ∧ t.vRank ∧ t.tn = 0) =
      true := by decide +kernel

/-- The example of R182. -/
theorem test_tobytes_layout :
    nextIs (exec .tobytes (withData (withTreeBytes small [2, 0x61, 0x62]) [0, 0, 8] 3))
      (fun t => outputBytes t = [3, 2, 0x61, 0x62, 0, 0, 8] ∧ t.olen = 7) = true := by
  decide +kernel

/-- V-C9: a container of 7 bytes and an OBUF of 6. -/
theorem test_tobytes_overflow :
    nextIs (exec .tobytes
        { withData (withTreeBytes small [2, 0x61, 0x62]) [0, 0, 8] 3 with obufCap := 6 })
      (fun t => report t = (false, true, 8, 0, 7) ∧ t.olen = 0) = true := by decide +kernel

/-- The example of R185. -/
theorem test_frombytes_split :
    nextIs (exec .frombytes (withInput small [3, 2, 0x61, 0x62, 0, 0, 8]))
      (fun t => t.pad = 3 ∧ treeBytes t = [2, 0x61, 0x62] ∧ packedBytes t = [0, 0, 8]) = true := by
  decide +kernel

/-- V-C7: the length check comes before the padding check. -/
theorem test_frombytes_length_first :
    nextIs (exec .frombytes (withInput small [9, 5, 1]))
      (fun t => report t = (false, true, 4, 2, 8) ∧ t.tlen = 0) = true := by decide +kernel

/-- V-W3: bits `1010` on the tree [a, b, c]. -/
theorem test_walk_two_codewords :
    nextIs (exec .walk (withData (withTree small [0x61, 0x62, 0x63]) [0xA0] 4))
      (fun t => outputBytes t = [0x62, 0x62] ∧ t.olen = 2) = true := by decide +kernel

/-- V-W4: bits `101` end inside a codeword. -/
theorem test_walk_truncated :
    nextIs (exec .walk (withData (withTree small [0x61, 0x62, 0x63]) [0xA0] 5))
      (fun t => report t = (false, true, 5, 1, 9) ∧ t.olen = 0) = true := by decide +kernel

/-- V-E4: "bba". -/
theorem test_encode_container :
    nextIs (exec .encode (withInput small [0x62, 0x62, 0x61]))
      (fun t => outputBytes t = [5, 2, 0x62, 0x61, 0x20] ∧ report t = (true, false, 0, 0, 7)) =
      true := by decide +kernel

/-- V-E13: "aaaa". -/
theorem test_encode_rejects_one_symbol :
    nextIs (exec .encode (withInput small [0x61, 0x61, 0x61, 0x61]))
      (fun t => report t = (false, true, 2, 1, 2) ∧ rankList t = [0x61] ∧ t.olen = 0) = true := by
  decide +kernel

/-- V-D18: the container's own order [b, a] is used. -/
theorem test_decode_container :
    nextIs (exec .decode (withInput small [5, 2, 0x62, 0x61, 0x20]))
      (fun t => outputBytes t = [0x62, 0x62, 0x61] ∧ report t = (true, false, 0, 0, 9)) = true := by
  decide +kernel

/-- V-D12: no data and a padding. -/
theorem test_decode_padding_without_data :
    nextIs (exec .decode (withInput small [3, 2, 0x61, 0x62]))
      (fun t => report t = (false, true, 4, 4, 9) ∧ t.vTree) = true := by decide +kernel

/-- V-X3. -/
theorem test_clear_keeps_ilen :
    nextIs (exec .clear (withTable (withInput small [1, 2]) [1, 2]))
      (fun t => t.vRank = false ∧ t.vCw = false ∧ t.n = 0 ∧ t.ilen = 2 ∧
        report t = (true, false, 0, 0, 0x0C)) = true := by decide +kernel

/-- V-X4: CMD reads 0 after SRESET and STATUS is not DONE. -/
theorem test_sreset_clears_cmd :
    nextIs (step (State.withFetchWord (withInput small [1, 2]) 32 0x0F))
      (fun t => t.lastCmd = 0 ∧ t.ilen = 0 ∧ report t = (false, false, 0, 0, 0)) = true := by
  decide +kernel

/-! ## The host's port -/

/-- V-H2: SEL 3, DATA 0x1234 stores 0x34 in IBUF[3]. -/
theorem test_data_write_low_byte :
    nextIs (step (withPending { small with sel := 3 } [scriptWr 14 0x1234]))
      (fun t => t.ibuf.read? 3 = some 0x34) = true := by decide +kernel

/-- V-H2: OBUF is read-only to the host. -/
theorem test_data_write_to_obuf_ignored :
    nextIs (step (withPending { small with sel := 0x10000000 } [scriptWr 14 0x55]))
      (fun t => t.obuf.cells = []) = true := by decide +kernel

/-- V-H1: PAD takes 7 and ignores 8. -/
theorem test_pad_bound :
    nextIs (step (withPending small [scriptWr 10 7])) (fun t => t.pad = 7) = true ∧
    nextIs (step (withPending small [scriptWr 10 8])) (fun t => t.pad = 0) = true := by
  decide +kernel

/-- V-H5: bit 3 of the codeword `1111` of d. -/
theorem test_data_read_code_bit :
    nextIs (step (withPending
        { withTable small [0x61, 0x62, 0x72, 0x63, 0x64] with sel := 0x70006403 } [scriptRd 14]))
      (fun t => t.readData = [1]) = true := by decide +kernel

theorem test_reserved_register :
    refusalOf (step (withPending small [.read 60 4])) = some (.reservedRegister 15) := by
  decide +kernel

theorem test_narrow_write :
    refusalOf (step (withPending small [.write 0 2 0])) = some (.notAWholeWord 0 2) := by
  decide +kernel

/-! ## Reset and the first step -/

theorem test_reset_buffers_canonical :
    State.reset.ibuf.wf ∧ State.reset.obuf.wf ∧ State.reset.tbuf.wf ∧ State.reset.dbuf.wf := by
  decide

/-- The first command after reset, from an opcode table row's word (R272). -/
theorem test_first_step_runs_rank :
    nextIs (step (State.reset.withFetchWord 32 1)) (fun t => report t = (false, true, 1, 0, 1)) =
      true := by decide +kernel

/-- V-C8: after reset TOBYTES writes the one byte PAD, whatever the capacities are. -/
theorem test_first_step_runs_tobytes :
    nextIs (step (State.reset.withFetchWord 32 7))
      (fun t => t.olen = 1 ∧ outputBytes t = [0]) = true := by decide +kernel

end Sys2Proof.Tests
end

