-- ==== Sys2Proof/Tests/Witnesses.lean ====
section
/-! SUPPORT. For each statement that has hypotheses, a concrete state and operands that meet all of them
together, clause by clause, at a boundary of the clause's range where it has one. -/
namespace Sys2Proof.Tests

-- One proof at a time: many at once need more threads than the checks' memory limit allows.
set_option Elab.async false

open Sys2Proof Sys2Proof.Machine

/-! ## Helpers -/

/-- The next state of an outcome (a fixed state where it stops). -/
def after (o : Host.Outcome State Fault Refusal) : State :=
  match o with
  | .next t => t
  | .fault _ => small
  | .refused _ => small

theorem next_after (o : Host.Outcome State Fault Refusal) (h : nextIs o (fun _ => true) = true) :
    o = .next (after o) := by
  cases o with
  | next t => rfl
  | fault r => simp [nextIs] at h
  | refused r => simp [nextIs] at h

theorem small_caps : CapsInRange small := by unfold CapsInRange; decide +kernel

/-- The five letters of "abracadabra" in rank order. -/
def abrcd : Bytes := [0x61, 0x62, 0x72, 0x63, 0x64]

/-- The chain of `abrcd`. -/
def abrcdTree : CodeTree := chainTree 0x61 0x62 [0x72, 0x63, 0x64]

/-! ## The step and the host's port -/

theorem witness_step_runs_command :
    (small.withFetchWord 32 9).pending = .write 0 4 9 :: [] ∧ decode 9 = .ok .walk := by decide

/-- The words 0x0D, 0x0E, 0x10 and 0x100, each the first of its kind. -/
theorem witness_illegal_word (w : Word) :
    (withPending small [.write 0 4 w]).pending = .write 0 4 w :: [] ∧
    (0x0D#32).toNat % 256 = 0x0D ∧ (0x0E#32).toNat % 256 = 0x0E ∧ 0x10 ≤ (0x10#32).toNat % 256 ∧
    (0x100#32).toNat / 256 ≠ 0 := ⟨rfl, by decide, by decide, by decide, by decide⟩

theorem witness_nothing_pending : small.pending = [] := by decide

theorem witness_register_read (r : Nat) :
    (withPending small [.read (4 * r) 4]).pending = .read (4 * r) 4 :: [] := rfl

theorem witness_register_read_value :
    (0, small.lastCmd) ∈ [(0, small.lastCmd), (19, 256#32)] ∧ small.lastCmd = 0 := by decide

/-- A state with every element space specified somewhere, and `sel` chosen. -/
def allSpaces (sel : Word) : State :=
  withPending
    { withTable small [0xFE, 0xFF] with
      ibuf := Memory.unspecified.write 31 1, obuf := Memory.unspecified.write 23 2
      tbuf := Memory.unspecified.write 255 3, dbuf := Memory.unspecified.write 3 4, sel := sel }
    [.read 56 4]

theorem witness_data_read_ibuf :
    (allSpaces 0x0000001F).sel.toNat / 2 ^ 28 = 0 ∧ (allSpaces 0x0000001F).sel.toNat % 2 ^ 28 = 31 ∧
    31 < (allSpaces 0x0000001F).ibufCap ∧ (allSpaces 0x0000001F).ibuf.read? 31 = some 1 ∧
    (allSpaces 0x0000001F).pending = .read 56 4 :: [] := by decide

theorem witness_data_read_obuf :
    (allSpaces 0x10000017).sel.toNat / 2 ^ 28 = 1 ∧ (allSpaces 0x10000017).sel.toNat % 2 ^ 28 = 23 ∧
    23 < (allSpaces 0x10000017).obufCap ∧ (allSpaces 0x10000017).obuf.read? 23 = some 2 := by decide

theorem witness_data_read_tbuf :
    (allSpaces 0x200000FF).sel.toNat / 2 ^ 28 = 2 ∧ (allSpaces 0x200000FF).sel.toNat % 2 ^ 28 = 255 ∧
    (allSpaces 0x200000FF).tbuf.read? 255 = some 3 := by decide +kernel

theorem witness_data_read_dbuf :
    (allSpaces 0x30000003).sel.toNat / 2 ^ 28 = 3 ∧ (allSpaces 0x30000003).sel.toNat % 2 ^ 28 = 3 ∧
    3 < (allSpaces 0x30000003).dbufCap ∧ (allSpaces 0x30000003).dbuf.read? 3 = some 4 := by decide

theorem witness_data_read_rank :
    (allSpaces 0x40000001).sel.toNat / 2 ^ 28 = 4 ∧ (allSpaces 0x40000001).sel.toNat % 2 ^ 28 = 1 ∧
    (allSpaces 0x40000001).vRank = true ∧ 1 < (allSpaces 0x40000001).n.toNat ∧
    (allSpaces 0x40000001).rank.toList[1]? = some 0xFF := by decide +kernel

theorem witness_data_read_tsym :
    (allSpaces 0x50000001).sel.toNat / 2 ^ 28 = 5 ∧ (allSpaces 0x50000001).sel.toNat % 2 ^ 28 = 1 ∧
    (allSpaces 0x50000001).vTree = true ∧ 1 < (allSpaces 0x50000001).tn.toNat ∧
    (allSpaces 0x50000001).tsym.toList[1]? = some 0xFF := by decide +kernel

theorem witness_data_read_cwlen :
    (allSpaces 0x600000FF).sel.toNat / 2 ^ 28 = 6 ∧ (allSpaces 0x600000FF).sel.toNat % 2 ^ 28 = 255 ∧
    (allSpaces 0x600000FF).vCw = true ∧
    (allSpaces 0x600000FF).cwlen.toList[255]? = some 1 := by decide +kernel

theorem witness_data_read_cwbit :
    (allSpaces 0x7000FF00).sel.toNat / 2 ^ 28 = 7 ∧
    (allSpaces 0x7000FF00).sel.toNat % 2 ^ 28 = 65280 ∧ (allSpaces 0x7000FF00).vCw = true ∧
    (allSpaces 0x7000FF00).cwlen.toList[65280 / 256]? = some 1 ∧
    (allSpaces 0x7000FF00).cwbits.toList[65280 / 256]? = some 1 ∧ 65280 % 256 < (1#8).toNat := by
  decide +kernel

theorem witness_data_write_stored :
    ((31#32).toNat / 2 ^ 28 = 0 ∧ (31#32).toNat % 2 ^ 28 < small.ibufCap) ∧
    ((0x200000FF#32).toNat / 2 ^ 28 = 2 ∧ (0x200000FF#32).toNat % 2 ^ 28 < 256) ∧
    ((0x30000003#32).toNat / 2 ^ 28 = 3 ∧ (0x30000003#32).toNat % 2 ^ 28 < small.dbufCap) ∧
    (withPending { small with sel := 31 } [.write 56 4 7]).pending = .write 56 4 7 :: [] := by decide

/-- Index 32 of IBUF and 4 of DBUF are at the capacity, 256 of TBUF beyond it; OBUF is read-only and
space 15 reserved. -/
theorem witness_data_write_ignored :
    ¬((0x00000020#32).toNat % 2 ^ 28 < small.ibufCap) ∧
    ((0x20000100#32).toNat / 2 ^ 28 = 2 ∧ ¬((0x20000100#32).toNat % 2 ^ 28 < 256)) ∧
    ((0x30000004#32).toNat / 2 ^ 28 = 3 ∧ ¬((0x30000004#32).toNat % 2 ^ 28 < small.dbufCap)) ∧
    (0x10000000#32).toNat / 2 ^ 28 = 1 ∧ (0xF0000000#32).toNat / 2 ^ 28 = 15 := by
  refine ⟨by decide +kernel, by decide +kernel, by decide +kernel, by decide +kernel, by decide +kernel⟩

theorem witness_scalar_writes (r : Nat) (w : Word) :
    (withPending small [.write (4 * r) 4 w]).pending = .write (4 * r) 4 w :: [] := rfl

theorem witness_refused_accesses :
    (withPending small [.write 0 2 0]).pending = .write 0 2 0 :: [] ∧ (2 ≠ 4 ∨ 0 % 4 ≠ 0) ∧
    (withPending small [.read 2 4]).pending = .read 2 4 :: [] ∧ (4 ≠ 4 ∨ 2 % 4 ≠ 0) ∧
    (withPending small [.read 60 4]).pending = .read 60 4 :: [] ∧ 60 % 4 = 0 ∧ 60 / 4 = 15 ∧
    (withPending small [.read 80 4]).pending = .read 80 4 :: [] ∧ 80 % 4 = 0 ∧ 20 ≤ 80 / 4 := by
  decide

theorem witness_load :
    CapsInRange small ∧ (List.replicate 32 (0x61 : Byte)).length ≤ small.ibufCap ∧
    (withPending small (scriptLoad (List.replicate 32 0x61) ++ [])).pending =
      scriptLoad (List.replicate 32 0x61) ++ [] := by
  refine ⟨small_caps, by decide, rfl⟩

theorem witness_resets :
    (withPending small [.reset]).pending = .reset :: [] ∧
    (withPending small [.resetDuring 10]).pending = .resetDuring 10 :: [] := by decide

/-! ## Invariants: a state with a tree and its table, about to run PACK -/

/-- A state with a tree, its table, a container in OBUF and the command PACK pending. -/
def ready : State :=
  State.withFetchWord
    { withInput (withTable small [0x61, 0x62]) [0x61, 0x62] with
      obuf := buffer [0, 2, 0x61, 0x62], olen := 4, stage := 7, statusDone := true }
    32 4

theorem ready_steps : step ready = .next (after (step ready)) :=
  next_after _ (by decide +kernel)

theorem lookup_pair (a b sym : Byte) (v w : Bits) :
    [(a, v), (b, w)].lookup sym = if sym = a then some v else if sym = b then some w else none := by
  by_cases h1 : sym = a
  · subst h1; simp
  · by_cases h2 : sym = b
    · subst h2; simp [List.lookup, beq_false_of_ne h1, h1]
    · simp [List.lookup, beq_false_of_ne h1, beq_false_of_ne h2, h1, h2]

theorem witness_flags_and_table : FlagsCoherent ready ∧ TableCoherent ready := by
  refine ⟨by unfold FlagsCoherent; decide +kernel, fun _ => ⟨by decide +kernel, fun sym => ?_⟩⟩
  have he : chainEntries (leafList ready) = [(0x61, [false]), (0x62, [true])] := by decide +kernel
  rw [he, lookup_pair]
  by_cases h1 : sym = 0x61
  · subst h1; decide +kernel
  · by_cases h2 : sym = 0x62
    · subst h2; decide +kernel
    · rw [if_neg h1, if_neg h2]
      have hlen : fileAt ready.cwlen sym = 0 := by
        show fileAt (fileSet (fileSet (Vector.replicate 256 0) 0x61 1) 0x62 1) sym = 0
        rw [fileAt_fileSet_other _ _ _ _ h2, fileAt_fileSet_other _ _ _ _ h1]
        simp [fileAt]
      simp [codeword, hlen]

theorem witness_lengths : CapsInRange ready ∧ LengthsInRange ready := by
  refine ⟨by unfold CapsInRange; decide +kernel, by unfold LengthsInRange; decide +kernel⟩

theorem inBounds_of_cells (cap : Nat) (m : Memory) (h : ∀ c ∈ m.cells, c.1 < cap) :
    InBounds cap m := by
  intro i hi
  have aux : ∀ cells : List Host.Cell, (∀ c ∈ cells, c.1 < cap) → cellsRead cells i = none := by
    intro cells
    induction cells with
    | nil => intro _; rfl
    | cons c rest ih =>
      intro hc
      have h1 : c.1 < cap := hc c (List.mem_cons_self ..)
      have h2 : c.1 ≠ i := by omega
      obtain ⟨a, b⟩ := c
      simp only [cellsRead]
      rw [if_neg h2]
      exact ih (fun d hd => hc d (List.mem_cons_of_mem _ hd))
  exact aux m.cells h

theorem witness_buffers : BuffersCoherent ready := by
  refine ⟨by decide +kernel, ⟨?_, ?_, ?_, ?_⟩, by decide +kernel⟩ <;>
    exact inBounds_of_cells _ _ (by decide +kernel)

theorem witness_report : ReportCoherent ready ∧ StageLegal ready := by
  refine ⟨by unfold ReportCoherent; decide +kernel, by unfold StageLegal; decide +kernel⟩

/-! ## The two ends of a command -/

theorem witness_earlier_report : Instr.rank ≠ .nop := by decide

theorem witness_each_command :
    exec .nop small = .next (after (exec .nop small)) ∧
    exec .encode small = .next (after (exec .encode small)) ∧ Instr.encode ≠ .nop :=
  ⟨next_after _ (by decide +kernel), next_after _ (by decide +kernel), by decide⟩

theorem witness_nop_write : (small.withFetchWord 32 0).pending = .write 0 4 0 :: [] := by decide

/-! ## FrequencyRanker and CodeTreeBuilder -/

theorem witness_rank_order :
    ([0x61] : Bytes) ≠ [] ∧ ([0x61, 0x62] : Bytes).Perm [0x62, 0x61] := by decide

theorem witness_rank : small.ilen = 0 ∧ (withInput small [0x61]).ilen ≠ 0 := by decide +kernel

theorem witness_build_tree :
    ([0x61] : Bytes).length < 2 ∧ 2 ≤ ([0x61, 0x62] : Bytes).length ∧
    buildTree [0x61, 0x62] = .ok (.level 0x61 (.leaf 0x62)) := by decide +kernel

theorem witness_build :
    small.vRank = false ∧
    ((withRank small [0x61]).vRank = true ∧ (withRank small [0x61]).n.toNat < 2) ∧
    ((withRank small [0x61, 0x62]).vRank = true ∧ 2 ≤ (withRank small [0x61, 0x62]).n.toNat) := by
  decide +kernel

/-! ## CodeTableDeriver -/

theorem witness_derive_table : abrcd.Nodup ∧ buildTree abrcd = .ok abrcdTree := by decide +kernel

/-- The table of `abrcdTree`. -/
def abrcdTable : CodeTable :=
  [(0x61, [false]), (0x62, [true, false]), (0x72, [true, true, false]),
    (0x63, [true, true, true, false]), (0x64, [true, true, true, true])]

theorem witness_prefix_free :
    deriveTable abrcdTree = .ok abrcdTable ∧ abrcdTable.codeOf 0x63 = some [true, true, true, false] ∧
    abrcdTable.codeOf 0x64 = some [true, true, true, true] ∧ (0x63 : Byte) ≠ 0x64 := by
  decide +kernel

theorem witness_derive_not_ready : small.vTree = false := by decide

theorem witness_derive_repeat :
    (withTree small [0x61, 0x61]).vTree = true ∧
    (leafList (withTree small [0x61, 0x61]))[1]? = some 0x61 ∧
    (∃ i, i < 1 ∧ (leafList (withTree small [0x61, 0x61]))[i]? = some 0x61) ∧
    (∀ k, k < 1 → ∀ i, i < k →
      (leafList (withTree small [0x61, 0x61]))[i]? ≠
        (leafList (withTree small [0x61, 0x61]))[k]?) := by
  refine ⟨by decide +kernel, by decide +kernel, ⟨0, by decide, by decide +kernel⟩, by decide +kernel⟩

theorem witness_derive_distinct :
    (withTree small abrcd).vTree = true ∧ 2 ≤ (withTree small abrcd).tn.toNat ∧
    (leafList (withTree small abrcd)).Nodup := by decide +kernel

theorem witness_derive_refines :
    buildTree (leafList (withTree small abrcd)) = .ok abrcdTree ∧
    deriveTable abrcdTree = .ok abrcdTable ∧
    exec .derive (withTree small abrcd) = .next (after (exec .derive (withTree small abrcd))) :=
  ⟨by decide +kernel, by decide +kernel, next_after _ (by decide +kernel)⟩

theorem witness_derive_refines_repeat :
    buildTree (leafList (withTree small [0x61, 0x61])) = .ok (.level 0x61 (.leaf 0x61)) ∧
    deriveTable (.level 0x61 (.leaf 0x61)) = .error ⟨.duplicateSymbol, 0x61⟩ ∧
    exec .derive (withTree small [0x61, 0x61]) =
      .next (after (exec .derive (withTree small [0x61, 0x61]))) :=
  ⟨by decide +kernel, by decide +kernel, next_after _ (by decide +kernel)⟩

/-! ## BitPacker -/

/-- The table of `abrcd` and an input. -/
def packState (bytes : Bytes) : State := withInput (withTable small abrcd) bytes

theorem witness_pack_not_ready : small.vCw = false := by decide

theorem witness_pack_unknown :
    (packState [0x61, 0x78]).vCw = true ∧ (inputBytes (packState [0x61, 0x78]))[1]? = some 0x78 ∧
    codeword (packState [0x61, 0x78]) 0x78 = none ∧
    (∀ k, k < 1 → ∀ c, (inputBytes (packState [0x61, 0x78]))[k]? = some c →
      codeword (packState [0x61, 0x78]) c ≠ none) := by
  refine ⟨by decide +kernel, by decide +kernel, by decide +kernel, ?_⟩
  intro k hk c hc
  have h0 : k = 0 := by omega
  subst h0
  have h1 : (inputBytes (packState [0x61, 0x78]))[0]? = some 0x61 := by decide +kernel
  rw [h1] at hc
  cases hc
  decide +kernel

/-- Nine codewords of four bits take five bytes, one more than DBUF has; eight take four. -/
theorem witness_pack_sizes :
    (∀ b, b ∈ inputBytes (packState (List.replicate 9 0x64)) →
      codeword (packState (List.replicate 9 0x64)) b ≠ none) ∧
    (packState (List.replicate 9 0x64)).dbufCap <
      (((inputBytes (packState (List.replicate 9 0x64))).flatMap (fun b =>
        (codeword (packState (List.replicate 9 0x64)) b).getD [])).length + 7) / 8 ∧
    (∀ b, b ∈ inputBytes (packState (List.replicate 8 0x64)) →
      codeword (packState (List.replicate 8 0x64)) b ≠ none) ∧
    (((inputBytes (packState (List.replicate 8 0x64))).flatMap (fun b =>
        (codeword (packState (List.replicate 8 0x64)) b).getD [])).length + 7) / 8 ≤
      (packState (List.replicate 8 0x64)).dbufCap := by decide +kernel

theorem witness_pack_caps : CapsInRange (packState (List.replicate 8 0x64)) := small_caps

/-! ## TreeSerializer and TreeDeserializer -/

theorem witness_serialize :
    (leaves abrcdTree).length ≤ 255 ∧ 255 < (leaves (chainTree 0 0 (List.replicate 254 0))).length := by
  decide +kernel

theorem witness_ser :
    small.vTree = false ∧
    (withTree small (List.replicate 256 0)).vTree = true ∧
    (withTree small (List.replicate 256 0)).tn.toNat = 256 ∧
    (withTree small (List.replicate 255 0)).vTree = true ∧
    (withTree small (List.replicate 255 0)).tn.toNat ≤ 255 := by decide +kernel

theorem witness_deser :
    small.tlen = 0 ∧
    (treeBytes (withTreeBytes small [3, 0x61, 0x62]) = 3 :: [0x61, 0x62] ∧
      (withTreeBytes small [3, 0x61, 0x62]).tlen.toNat < 1 + (3#8).toNat) ∧
    (treeBytes (withTreeBytes small [1, 0x61]) = 1 :: [0x61] ∧
      1 + (1#8).toNat ≤ (withTreeBytes small [1, 0x61]).tlen.toNat) ∧
    (treeBytes (withTreeBytes small [2, 0x61, 0x62]) = 2 :: [0x61, 0x62] ∧
      1 + (2#8).toNat ≤ (withTreeBytes small [2, 0x61, 0x62]).tlen.toNat) := by decide +kernel

theorem witness_ser_then_deser :
    (withTree small abrcd).vTree = true ∧ 2 ≤ (withTree small abrcd).tn.toNat ∧
    (withTree small abrcd).tn.toNat ≤ 255 ∧
    exec .ser (withTree small abrcd) = .next (after (exec .ser (withTree small abrcd))) ∧
    exec .deser (after (exec .ser (withTree small abrcd))) =
      .next (after (exec .deser (after (exec .ser (withTree small abrcd))))) :=
  ⟨by decide +kernel, by decide +kernel, by decide +kernel, next_after _ (by decide +kernel),
    next_after _ (by decide +kernel)⟩

/-! ## ContainerCodec -/

theorem witness_from_bytes : (7#8).toNat ≤ 7 ∧ ([0x61, 0x62] : Bytes).length = (2#8).toNat := by decide

/-- PAD, TBUF and DBUF of the example of R182. -/
def container : State := withData (withTreeBytes small [2, 0x61, 0x62]) [0, 0, 8] 3

theorem witness_tobytes :
    ({ container with obufCap := 6 } : State).obufCap <
      1 + container.tlen.toNat + container.dlen.toNat ∧
    1 + container.tlen.toNat + container.dlen.toNat ≤ ({ container with obufCap := 7 } : State).obufCap ∧
    CapsInRange { container with obufCap := 7 } := by
  refine ⟨by decide +kernel, by decide +kernel, by unfold CapsInRange; decide +kernel⟩

theorem witness_frombytes_short : (withInput small [0]).ilen.toNat < 2 := by decide +kernel

theorem witness_frombytes_errors :
    (inputBytes (withInput small [0, 1]) = 0 :: 1 :: [] ∧
      (withInput small [0, 1]).ilen.toNat < 2 + (1#8).toNat) ∧
    (inputBytes (withInput small [8, 0]) = 8 :: 0 :: [] ∧
      2 + (0#8).toNat ≤ (withInput small [8, 0]).ilen.toNat ∧ 7 < (8#8).toNat) ∧
    (inputBytes (withInput small [7, 0, 1, 2, 3, 4, 5]) = 7 :: 0 :: [1, 2, 3, 4, 5] ∧
      2 + (0#8).toNat ≤ (withInput small [7, 0, 1, 2, 3, 4, 5]).ilen.toNat ∧ (7#8).toNat ≤ 7 ∧
      small.dbufCap < (withInput small [7, 0, 1, 2, 3, 4, 5]).ilen.toNat - 2 - (0#8).toNat) := by
  decide +kernel

theorem witness_frombytes :
    inputBytes (withInput small [7, 1, 0x61, 1, 2, 3, 4]) = 7 :: 1 :: [0x61, 1, 2, 3, 4] ∧
    2 + (1#8).toNat ≤ (withInput small [7, 1, 0x61, 1, 2, 3, 4]).ilen.toNat ∧ (7#8).toNat ≤ 7 ∧
    (withInput small [7, 1, 0x61, 1, 2, 3, 4]).ilen.toNat - 2 - (1#8).toNat ≤ small.dbufCap := by
  decide +kernel

theorem witness_frombytes_after_tobytes :
    CapsInRange container ∧ treeBytes container = 2 :: [0x61, 0x62] ∧
    ([0x61, 0x62] : Bytes).length = (2#8).toNat ∧
    exec .tobytes container = .next (after (exec .tobytes container)) ∧
    (after (exec .tobytes container)).statusDone = true ∧
    inputBytes (withInput small [3, 2, 0x61, 0x62, 0, 0, 8]) =
      outputBytes (after (exec .tobytes container)) ∧
    container.dlen.toNat ≤ small.dbufCap ∧
    exec .frombytes (withInput small [3, 2, 0x61, 0x62, 0, 0, 8]) =
      .next (after (exec .frombytes (withInput small [3, 2, 0x61, 0x62, 0, 0, 8]))) :=
  ⟨small_caps, by decide +kernel, by decide, next_after _ (by decide +kernel), by decide +kernel,
    by decide +kernel, by decide +kernel, next_after _ (by decide +kernel)⟩

/-! ## Decoder -/

theorem witness_walk_in_tree : 2 ≤ ([0x61, 0x62] : Bytes).length := by decide

theorem witness_walk_inverts :
    abrcd.Nodup ∧ buildTree abrcd = .ok abrcdTree ∧ deriveTable abrcdTree = .ok abrcdTable ∧
    ∀ b, b ∈ ([0x64, 0x61, 0x64] : Bytes) → b ∈ abrcd := by decide +kernel

/-- The tree [a, b, c], one byte of data and a padding. -/
def walkState (b : Byte) (pad : BitVec 3) : State :=
  withData (withTree small [0x61, 0x62, 0x63]) [b] pad

theorem witness_walk :
    walk (leafList (walkState 0xA0 4)) (unpack (packedBytes (walkState 0xA0 4)) (8 * 1 - 4)) =
      ([0x62, 0x62], 0) ∧ (walkState 0xA0 4).dlen.toNat = 1 ∧ (walkState 0xA0 4).pad.toNat = 4 ∧
    (walkState 0xA0 4).vTree = true := by decide +kernel

theorem witness_walk_caps : CapsInRange (walkState 0xA0 4) := small_caps

theorem witness_walk_not_ready :
    walk (leafList small) (unpack (packedBytes small) (8 * small.dlen.toNat - small.pad.toNat)) =
      ([], 0) ∧ small.vTree = false := by decide +kernel

theorem witness_walk_padding :
    8 * (withData (withTree small [0x61, 0x62]) [] 1).dlen.toNat <
      (withData (withTree small [0x61, 0x62]) [] 1).pad.toNat := by decide +kernel

theorem witness_walk_truncated :
    walk (leafList (walkState 0xA0 5)) (unpack (packedBytes (walkState 0xA0 5)) (8 * 1 - 5)) =
      ([0x62], 1) ∧ (walkState 0xA0 5).pad.toNat ≤ 8 * (walkState 0xA0 5).dlen.toNat := by
  decide +kernel

/-- Seven symbols and an OBUF of six bytes. -/
theorem witness_walk_overflow :
    walk (leafList (walkState 0x80 0)) (unpack (packedBytes (walkState 0x80 0)) (8 * 1 - 0)) =
      ([0x62, 0x61, 0x61, 0x61, 0x61, 0x61, 0x61], 0) ∧
    ({ walkState 0x80 0 with obufCap := 6 } : State).obufCap < 7 := by decide +kernel

/-! ## The data flows -/

/-- "bba", with room for just its container. -/
def bba : State :=
  { withInput small [0x62, 0x62, 0x61] with obufCap := 5, dbufCap := 1 }

theorem witness_encode :
    encodeBuffer (inputBytes bba) = .ok [5, 2, 0x62, 0x61, 0x20] ∧
    rankOrder (inputBytes bba) = .ok [0x62, 0x61] ∧
    [5, 2, 0x62, 0x61, (0x20 : Byte)].length ≤ bba.obufCap ∧
    [5, 2, 0x62, 0x61, (0x20 : Byte)].length - 2 - [0x62, (0x61 : Byte)].length ≤ bba.dbufCap := by
  decide +kernel

theorem witness_encode_caps : CapsInRange bba := by unfold CapsInRange; decide +kernel

theorem rank_order_of_symbols (buf r : Bytes) (h1 : ∀ b, b ∈ buf → b ∈ r) (h2 : ∀ b, b ∈ r → b ∈ buf)
    (h3 : r.Pairwise (RanksBefore buf)) : IsRankOrder buf r :=
  ⟨fun sym => ⟨h2 sym, h1 sym⟩, h3⟩

theorem bba_rank_order : IsRankOrder (inputBytes bba) [0x62, 0x61] := by
  have h : inputBytes bba = [0x62, 0x62, 0x61] := by decide +kernel
  rw [h]
  refine rank_order_of_symbols _ _ (by decide) (by decide) ?_
  unfold RanksBefore
  decide

theorem witness_encode_empty : IsRankOrder (inputBytes small) [] := by
  have h : inputBytes small = [] := by decide +kernel
  rw [h]
  exact ⟨by simp, List.Pairwise.nil⟩

theorem witness_encode_one_symbol : IsRankOrder (inputBytes (withInput small [0x61, 0x61])) [0x61] := by
  have h : inputBytes (withInput small [0x61, 0x61]) = [0x61, 0x61] := by decide +kernel
  rw [h]
  exact rank_order_of_symbols _ _ (by decide) (by decide) (List.pairwise_singleton _ _)

/-- Nine times `b`, once `a`: ten bits take two bytes and DBUF has one. -/
theorem witness_encode_data_too_long :
    1 < ((codedBits [0x62, 0x61] (List.replicate 9 0x62 ++ [0x61])).length + 7) / 8 ∧
    inputBytes { withInput small (List.replicate 9 0x62 ++ [0x61]) with dbufCap := 1 } =
      List.replicate 9 0x62 ++ [0x61] := by decide +kernel

/-- The container of "bba" has five bytes and OBUF four. -/
theorem witness_encode_container_too_long :
    ((codedBits [0x62, 0x61] [0x62, 0x62, 0x61]).length + 7) / 8 = 1 ∧
    inputBytes { bba with obufCap := 4 } = [0x62, 0x62, 0x61] ∧
    ({ bba with obufCap := 4 } : State).obufCap < 2 + [0x62, (0x61 : Byte)].length + 1 := by
  decide +kernel

/-- All 256 byte values once each. -/
def allBytes : State :=
  { withInput small symbols with ibufCap := 256, dbufCap := 8160 }

theorem symbols_length : symbols.length = 256 := by simp [symbols]

theorem allBytes_input : inputBytes allBytes = symbols := by
  unfold inputBytes allBytes withInput buffer
  generalize hs : symbols = syms
  have hlen : syms.length = 256 := hs ▸ symbols_length
  have h32 : (BitVec.ofNat 32 syms.length).toNat = syms.length := by rw [hlen]; rfl
  show memRead .ibuf (Memory.unspecified.writeBytes 0 syms) 0 (BitVec.ofNat 32 syms.length).toNat = _
  rw [h32]
  exact memRead_writeBytes .ibuf Memory.unspecified 0 syms

theorem symbols_ascend : symbols.Pairwise (fun a b => a.toNat < b.toNat) := by
  unfold symbols
  rw [List.pairwise_map]
  refine List.Pairwise.imp_of_mem ?_ List.pairwise_lt_range
  intro a b ha hb hab
  rw [List.mem_range] at ha hb
  simp only [BitVec.toNat_ofNat]
  omega

theorem symbols_nodup : symbols.Nodup :=
  symbols_ascend.imp fun {_ _} hab he => absurd (congrArg BitVec.toNat he) (Nat.ne_of_lt hab)

theorem lookup_length_le (entries : List (Byte × Bits)) (k : Nat) (sym : Byte)
    (h : ∀ e ∈ entries, e.2.length ≤ k) : ((entries.lookup sym).getD []).length ≤ k := by
  induction entries with
  | nil => simp
  | cons e rest ih =>
    obtain ⟨a, w⟩ := e
    by_cases hs : sym = a
    · subst hs; simpa using h (sym, w) (List.mem_cons_self ..)
    · simpa [List.lookup, beq_false_of_ne hs] using ih (fun d hd => h d (List.mem_cons_of_mem _ hd))

/-- Codewords of a tree of 256 leaves have at most 255 bits, so 256 of them take at most 8160 bytes. -/
theorem codedBits_length_le (r buf : Bytes) (hr : r.length = 256) :
    (codedBits r buf).length ≤ 255 * buf.length := by
  have hcode : ∀ e ∈ chainEntries r, e.2.length ≤ 255 := by
    intro e he
    obtain ⟨d, _, rfl⟩ := List.mem_map.mp he
    show (chainCode r.length d.2).length ≤ 255
    rw [hr]
    by_cases h : d.2 + 1 < 256
    · simp [chainCode, h]; omega
    · rw [chainCode, if_neg h, List.length_replicate]
  unfold codedBits
  generalize chainEntries r = entries at hcode ⊢
  induction buf with
  | nil => simp
  | cons b rest ih =>
    have h1 := lookup_length_le entries 255 b hcode
    simp only [List.flatMap_cons, List.length_append, List.length_cons]
    omega

theorem witness_encode_256 :
    IsRankOrder (inputBytes allBytes) symbols ∧ symbols.length = 256 ∧
    ((codedBits symbols (inputBytes allBytes)).length + 7) / 8 ≤ allBytes.dbufCap := by
  rw [allBytes_input]
  refine ⟨rank_order_of_symbols _ _ (fun _ h => h) (fun _ h => h) ?_, symbols_length, ?_⟩
  · refine List.Pairwise.imp_of_mem ?_ symbols_ascend
    intro a b ha hb hab
    refine .inr ⟨?_, hab⟩
    rw [List.count_eq_one_of_mem symbols_nodup ha, List.count_eq_one_of_mem symbols_nodup hb]
  · have h1 := codedBits_length_le symbols symbols symbols_length
    rw [symbols_length] at h1
    show _ ≤ 8160
    omega

theorem witness_encode_256_caps : CapsInRange allBytes := by unfold CapsInRange; decide +kernel

theorem witness_decode :
    decodeContainer (inputBytes (withInput small [5, 2, 0x62, 0x61, 0x20])) = .ok [0x62, 0x62, 0x61] ∧
    fromBytes (inputBytes (withInput small [5, 2, 0x62, 0x61, 0x20])) =
      .ok { padding := 5, serializedTree := [2, 0x62, 0x61], packedData := [0x20] } ∧
    [(0x20 : Byte)].length ≤ small.dbufCap ∧ [0x62, 0x62, (0x61 : Byte)].length ≤ small.obufCap := by
  decide +kernel

theorem witness_decode_short : (withInput small [0]).ilen.toNat < 2 := by decide +kernel

/-- One container for each failing row of R217 after the first, in the table's order, with what its
hypotheses say of the symbols and the data. -/
theorem witness_decode_failures :
    (inputBytes (withInput small [0, 1]) = 0 :: 1 :: [] ∧ ([] : Bytes).length < (1#8).toNat) ∧
    (inputBytes (withInput small [8, 0]) = 8 :: 0 :: [] ∧ 7 < (8#8).toNat) ∧
    (inputBytes (withInput small [0, 0, 1, 2, 3, 4, 5]) = 0 :: 0 :: [1, 2, 3, 4, 5] ∧
      small.dbufCap < ([1, 2, 3, 4, 5] : Bytes).length) ∧
    (inputBytes (withInput small [0, 1, 0x61]) = 0 :: 1 :: [0x61] ∧ (1#8).toNat < 2) ∧
    (inputBytes (withInput small [1, 2, 0x61, 0x62]) = 1 :: 2 :: [0x61, 0x62] ∧
      ([0x61, 0x62] : Bytes).drop (2#8).toNat = [] ∧ 0 < (1#8).toNat) ∧
    (inputBytes (withInput small [5, 3, 0x61, 0x62, 0x63, 0xA0]) = 5 :: 3 :: [0x61, 0x62, 0x63, 0xA0] ∧
      walk [0x61, 0x62, 0x63] (unpack [0xA0] (8 * 1 - 5)) = ([0x62], 1)) ∧
    (inputBytes (withInput { small with obufCap := 6 } [0, 3, 0x61, 0x62, 0x63, 0x80]) =
        0 :: 3 :: [0x61, 0x62, 0x63, 0x80] ∧
      walk [0x61, 0x62, 0x63] (unpack [0x80] (8 * 1 - 0)) =
        ([0x62, 0x61, 0x61, 0x61, 0x61, 0x61, 0x61], 0)) := by decide +kernel

theorem witness_encoded_sizes :
    encodeBuffer [0x62, 0x62, 0x61] = .ok [5, 2, 0x62, 0x61, 0x20] ∧
    inputBytes bba = [0x62, 0x62, 0x61] := by decide +kernel

theorem witness_decode_undoes_encode :
    2 ≤ [0x62, (0x61 : Byte)].length ∧ [0x62, (0x61 : Byte)].length ≤ 255 := by decide

theorem witness_decode_after_encode :
    CapsInRange bba ∧ exec .encode bba = .next (after (exec .encode bba)) ∧
    (after (exec .encode bba)).statusDone = true ∧
    inputBytes (withInput small [5, 2, 0x62, 0x61, 0x20]) = outputBytes (after (exec .encode bba)) ∧
    CapsInRange (withInput small [5, 2, 0x62, 0x61, 0x20]) ∧
    (after (exec .encode bba)).dlen.toNat ≤ small.dbufCap ∧
    (inputBytes bba).length ≤ small.obufCap :=
  ⟨witness_encode_caps, next_after _ (by decide +kernel), by decide +kernel, by decide +kernel,
    small_caps, by decide +kernel, by decide +kernel⟩

/-- Two states with the input "bba", encoded with success, and different files. -/
theorem witness_same_input :
    inputBytes bba = inputBytes (withTable { bba with stage := 9 } abrcd) ∧
    bba.obufCap = (withTable { bba with stage := 9 } abrcd).obufCap ∧
    bba.dbufCap = (withTable { bba with stage := 9 } abrcd).dbufCap ∧
    exec .encode bba = .next (after (exec .encode bba)) ∧
    exec .encode (withTable { bba with stage := 9 } abrcd) =
      .next (after (exec .encode (withTable { bba with stage := 9 } abrcd))) ∧
    (after (exec .encode bba)).vCw = true :=
  ⟨by decide +kernel, by decide +kernel, by decide +kernel, next_after _ (by decide +kernel),
    next_after _ (by decide +kernel), by decide +kernel⟩

/-- The container of "bba", decoded with success from two states with different files. -/
def boxed : State := withInput small [5, 2, 0x62, 0x61, 0x20]

theorem witness_same_container :
    inputBytes boxed = inputBytes (withTable { boxed with stage := 7 } abrcd) ∧
    boxed.obufCap = (withTable { boxed with stage := 7 } abrcd).obufCap ∧
    boxed.dbufCap = (withTable { boxed with stage := 7 } abrcd).dbufCap ∧
    exec .decode boxed = .next (after (exec .decode boxed)) ∧
    exec .decode (withTable { boxed with stage := 7 } abrcd) =
      .next (after (exec .decode (withTable { boxed with stage := 7 } abrcd))) ∧
    (after (exec .decode boxed)).statusDone = true :=
  ⟨by decide +kernel, by decide +kernel, by decide +kernel, next_after _ (by decide +kernel),
    next_after _ (by decide +kernel), by decide +kernel⟩

end Sys2Proof.Tests
end

section
/-! SUPPORT. What each stage can do (one lemma per stage, its branches with their conditions), what
every stage has in common, and the one induction by which a property of the state is shown to be kept by
every step. -/
namespace Sys2Proof.Machine

/-! ## What each stage can do -/

/-- RANK: the ranker fails, or its rank order is loaded (R123). -/
theorem rankStage_cases (s : State) :
    (∃ f, rankOrder (inputBytes s) = .error f ∧ rankStage s = raiseFailure f (rankStart s)) ∨
    (∃ r, rankOrder (inputBytes s) = .ok r ∧
      rankStage s =
        succeed
          { rankStart s with
            rank := loadFile s.rank r, n := BitVec.ofNat 9 r.length, vRank := true }) := by
  cases h : rankOrder (inputBytes s) with
  | error f => exact .inl ⟨f, rfl, by simp only [rankStage, h]⟩
  | ok r => exact .inr ⟨r, rfl, by simp only [rankStage, h]⟩

/-- BUILD: no rank order, one of fewer than two symbols, or the chain of it (R133). -/
theorem buildStage_cases (s : State) :
    (s.vRank = false ∧ buildStage s = raise .notReady 0 (buildStart s)) ∨
    (s.vRank = true ∧ s.n.toNat < 2 ∧
      buildStage s = raise .insufficientSymbols (s.n.setWidth 32) (buildStart s)) ∨
    (s.vRank = true ∧ 2 ≤ s.n.toNat ∧
      buildStage s =
        succeed
          { buildStart s with tsym := loadFile s.tsym (rankList s), tn := s.n, vTree := true }) := by
  unfold buildStage
  split
  · exact .inl ⟨‹_›, rfl⟩
  · split
    · exact .inr (.inl ⟨by simpa using ‹¬s.vRank = false›, ‹_›, rfl⟩)
    · exact .inr (.inr ⟨by simpa using ‹¬s.vRank = false›, by omega, rfl⟩)

/-- DERIVE: no tree, a repeated leaf, or the table of the tree (R144, R145). -/
theorem deriveStage_cases (s : State) :
    (s.vTree = false ∧ deriveStage s = raise .notReady 0 (deriveStart s)) ∨
    (s.vTree = true ∧ ∃ sym, firstRepeat [] (leafList s) = some sym ∧
      deriveStage s = raise .duplicateSymbol (sym.setWidth 32) (deriveStart s)) ∨
    (s.vTree = true ∧ firstRepeat [] (leafList s) = none ∧
      deriveStage s =
        succeed
          { deriveStart s with
            cwlen := derivedLengths (chainEntries (leafList s))
            cwbits := derivedBits s.cwbits (chainEntries (leafList s))
            vCw := true }) := by
  unfold deriveStage
  split
  · exact .inl ⟨‹_›, rfl⟩
  · have htree : s.vTree = true := by simpa using ‹¬s.vTree = false›
    cases h : firstRepeat [] (leafList s) with
    | some sym => exact .inr (.inl ⟨htree, sym, rfl, rfl⟩)
    | none => exact .inr (.inr ⟨htree, rfl, rfl⟩)

/-- PACK: one of its three errors, or the packed bits within the capacity of DBUF (R155). -/
theorem packStage_cases (s : State) :
    (∃ e info, packStage s = packFail e info s) ∨
    (∃ bits, s.vCw = true ∧ codeBits (codeword s) (inputBytes s) = .ok bits ∧
      (pack bits).1.length ≤ s.dbufCap ∧
      packStage s =
        succeed
          { packStart s with
            dbuf := s.dbuf.writeBytes 0 (pack bits).1
            dlen := BitVec.ofNat 32 (pack bits).1.length
            pad := BitVec.ofNat 3 (pack bits).2 }) := by
  unfold packStage
  split
  · exact .inl ⟨_, _, rfl⟩
  · have hcw : s.vCw = true := by simpa using ‹¬s.vCw = false›
    cases h : codeBits (codeword s) (inputBytes s) with
    | error i => exact .inl ⟨_, _, rfl⟩
    | ok bits =>
      dsimp only
      split
      · exact .inl ⟨_, _, rfl⟩
      · exact .inr ⟨bits, hcw, rfl, by omega, rfl⟩

/-- SER: one of its two errors, or the tree's bytes (R167). -/
theorem serStage_cases (s : State) :
    (∃ e info, serStage s = serFail e info s) ∨
    (s.vTree = true ∧ s.tn.toNat ≤ 255 ∧
      serStage s =
        succeed
          { serStart s with
            tbuf := (s.tbuf.writeBytes 0 [s.tn.setWidth 8]).writeBytes 1 (leafList s)
            tlen := 1 + s.tn }) := by
  unfold serStage
  split
  · exact .inl ⟨_, _, rfl⟩
  · split
    · exact .inl ⟨_, _, rfl⟩
    · exact .inr ⟨by simpa using ‹¬s.vTree = false›, by omega, rfl⟩

theorem tlen_of_treeBytes {s : State} {c : Byte} {rest : Bytes} (h : treeBytes s = c :: rest) :
    s.tlen.toNat = rest.length + 1 := by
  rw [← treeBytes_length, h, List.length_cons]

/-- DESER: no whole tree in TBUF, fewer than two symbols (the rank order stays loaded), or rank order and
tree loaded (R171). -/
theorem deserStage_cases (s : State) :
    (∃ info, deserStage s = raise .malformedTree info (deserStart s)) ∨
    (∃ c rest, treeBytes s = c :: rest ∧ c.toNat ≤ rest.length ∧
      ((c.toNat < 2 ∧
        deserStage s =
          raise .insufficientSymbols (c.setWidth 32) (deserRanked s (rest.take c.toNat))) ∨
      (2 ≤ c.toNat ∧
        deserStage s =
          succeed
            { deserRanked s (rest.take c.toNat) with
              tsym := loadFile s.tsym (rest.take c.toNat)
              tn := c.setWidth 9
              vTree := true }))) := by
  unfold deserStage
  cases h : treeBytes s with
  | nil => exact .inl ⟨_, rfl⟩
  | cons c rest =>
    have hlen := tlen_of_treeBytes h
    dsimp only
    split
    · exact .inl ⟨_, rfl⟩
    · refine .inr ⟨c, rest, rfl, by omega, ?_⟩
      split
      · exact .inl ⟨‹_›, rfl⟩
      · exact .inr ⟨by omega, rfl⟩

/-- TOBYTES: the container does not fit, or it is written to OBUF (R182). -/
theorem tobytesStage_cases (s : State) :
    (s.obufCap < 1 + s.tlen.toNat + s.dlen.toNat ∧
      tobytesStage s = raise .bufferOverflow 0 { tobytesStart s with obuf := s.obuf.forget }) ∨
    (1 + s.tlen.toNat + s.dlen.toNat ≤ s.obufCap ∧
      tobytesStage s =
        succeed
          { tobytesStart s with
            obuf := s.obuf.writeBytes 0 (toBytes (heldContainer s))
            olen := BitVec.ofNat 32 (1 + s.tlen.toNat + s.dlen.toNat) }) := by
  unfold tobytesStage
  split
  · exact .inl ⟨‹_›, rfl⟩
  · exact .inr ⟨by omega, rfl⟩

/-- FROMBYTES: one of its errors, or the container's parts, the data within the capacity of DBUF
(R185). -/
theorem frombytesStage_cases (s : State) :
    (∃ f, frombytesStage s = frombytesFail f s) ∨
    (∃ c, fromBytes (inputBytes s) = .ok c ∧ c.packedData.length ≤ s.dbufCap ∧
      frombytesStage s =
        succeed
          { frombytesStart s with
            tbuf := s.tbuf.writeBytes 0 c.serializedTree
            dbuf := s.dbuf.writeBytes 0 c.packedData
            pad := c.padding.setWidth 3
            tlen := BitVec.ofNat 9 c.serializedTree.length
            dlen := BitVec.ofNat 32 c.packedData.length }) := by
  unfold frombytesStage
  cases h : fromBytes (inputBytes s) with
  | error f => exact .inl ⟨f, rfl⟩
  | ok c =>
    dsimp only
    split
    · exact .inl ⟨_, rfl⟩
    · exact .inr ⟨c, rfl, by omega, rfl⟩

/-- WALK: one of its errors, or the symbols walked within the capacity of OBUF (R198). -/
theorem walkStage_cases (s : State) :
    (∃ e info, walkStage s = walkFail e info s) ∨
    (s.vTree = true ∧ s.pad.toNat ≤ 8 * s.dlen.toNat ∧ (walk (leafList s) (dataBits s)).2 = 0 ∧
      (walk (leafList s) (dataBits s)).1.length ≤ s.obufCap ∧
      walkStage s =
        succeed
          { walkStart s with
            obuf := s.obuf.writeBytes 0 (walk (leafList s) (dataBits s)).1
            olen := BitVec.ofNat 32 (walk (leafList s) (dataBits s)).1.length }) := by
  unfold walkStage
  split
  · exact .inl ⟨_, _, rfl⟩
  split
  · exact .inl ⟨_, _, rfl⟩
  split
  · exact .inl ⟨_, _, rfl⟩
  split
  · exact .inl ⟨_, _, rfl⟩
  · exact .inr ⟨by simpa using ‹¬s.vTree = false›, by omega, not_not.mp ‹_›, by omega, rfl⟩

/-! ## What every stage has in common -/

/-- The ten stages of which the commands are made, with the opcode that each puts in STAGE (R37,
R210). -/
inductive IsStage : BitVec 8 → (State → StageExit) → Prop where
  | rank : IsStage 0x01 rankStage
  | build : IsStage 0x02 buildStage
  | derive : IsStage 0x03 deriveStage
  | pack : IsStage 0x04 packStage
  | ser : IsStage 0x05 serStage
  | deser : IsStage 0x06 deserStage
  | tobytes : IsStage 0x07 tobytesStage
  | frombytes : IsStage 0x08 frombytesStage
  | walk : IsStage 0x09 walkStage
  | clear : IsStage 0x0C clearStage

/-- `x` is how a stage of opcode `op` ends when it starts in `s`: through the success exit or the error
entry, from a state in which STAGE is `op` and the input is as it was (R37, R79, R244, R245). -/
def StageEnds (s : State) (op : BitVec 8) (x : StageExit) : Prop :=
  ∃ u, (x = succeed u ∨ ∃ e info, x = raise e info u) ∧ u.stage = op ∧ KeepsInput s u

theorem StageEnds.of_succeed {s u : State} {op : BitVec 8} {x : StageExit} (hx : x = succeed u)
    (hop : u.stage = op) (hin : KeepsInput s u) : StageEnds s op x := ⟨u, .inl hx, hop, hin⟩

theorem StageEnds.of_raise {s u : State} {op : BitVec 8} {x : StageExit} {e : ErrorKind} {info : Word}
    (hx : x = raise e info u) (hop : u.stage = op) (hin : KeepsInput s u) : StageEnds s op x :=
  ⟨u, .inr ⟨e, info, hx⟩, hop, hin⟩

theorem keepsInput_refl (s : State) : KeepsInput s s :=
  ⟨rfl, rfl, rfl, rfl, ⟨rfl, rfl, rfl⟩, ⟨rfl, rfl, rfl⟩⟩

/-- Every stage ends in one of the two ways, and its own updates touch neither STAGE again nor the
input. -/
theorem stage_ends {op : BitVec 8} {f : State → StageExit} (hf : IsStage op f) (s : State) :
    StageEnds s op (f s) := by
  have keeps := keepsInput_refl s
  cases hf with
  | rank =>
    rcases rankStage_cases s with ⟨_, _, h⟩ | ⟨_, _, h⟩
    · exact .of_raise h rfl keeps
    · exact .of_succeed h rfl keeps
  | build =>
    rcases buildStage_cases s with ⟨_, h⟩ | ⟨_, _, h⟩ | ⟨_, _, h⟩
    · exact .of_raise h rfl keeps
    · exact .of_raise h rfl keeps
    · exact .of_succeed h rfl keeps
  | derive =>
    rcases deriveStage_cases s with ⟨_, h⟩ | ⟨_, _, _, h⟩ | ⟨_, _, h⟩
    · exact .of_raise h rfl keeps
    · exact .of_raise h rfl keeps
    · exact .of_succeed h rfl keeps
  | pack =>
    rcases packStage_cases s with ⟨_, _, h⟩ | ⟨_, _, _, _, h⟩
    · exact .of_raise h rfl keeps
    · exact .of_succeed h rfl keeps
  | ser =>
    rcases serStage_cases s with ⟨_, _, h⟩ | ⟨_, _, h⟩
    · exact .of_raise h rfl keeps
    · exact .of_succeed h rfl keeps
  | deser =>
    rcases deserStage_cases s with ⟨_, h⟩ | ⟨_, _, _, _, ⟨_, h⟩ | ⟨_, h⟩⟩
    · exact .of_raise h rfl keeps
    · exact .of_raise h rfl keeps
    · exact .of_succeed h rfl keeps
  | tobytes =>
    rcases tobytesStage_cases s with ⟨_, h⟩ | ⟨_, h⟩
    · exact .of_raise h rfl keeps
    · exact .of_succeed h rfl keeps
  | frombytes =>
    rcases frombytesStage_cases s with ⟨_, h⟩ | ⟨_, _, _, h⟩
    · exact .of_raise h rfl keeps
    · exact .of_succeed h rfl keeps
  | walk =>
    rcases walkStage_cases s with ⟨_, _, h⟩ | ⟨_, _, _, _, h⟩
    · exact .of_raise h rfl keeps
    · exact .of_succeed h rfl keeps
  | clear => exact .of_succeed (u := clearedState s) rfl rfl keeps

/-- Every stage keeps the input and the host's side (R79). -/
theorem stage_keepsInput {op : BitVec 8} {f : State → StageExit} (hf : IsStage op f) (s : State) :
    KeepsInput s (f s).state := by
  obtain ⟨u, hx | ⟨e, info, hx⟩, -, hin⟩ := stage_ends hf s
  · rw [hx]; exact hin
  · rw [hx]; exact hin

/-! ## Commands as sequences of stages -/

/-- A property that the first of two stages leaves, and the second keeps, holds after both. -/
theorem andThen_kept {P : State → Prop} {x : StageExit} {f : State → StageExit} (hx : P x.state)
    (hf : ∀ s, P s → P (f s).state) : P (x.andThen f).state := by
  rcases andThen_cases x f with ⟨t, rfl, h⟩ | ⟨t, rfl, h⟩
  · rw [h]; exact hx
  · rw [h]; exact hf t hx

/-- What every stage keeps, ENCODE keeps (R210, R211). -/
theorem encodeStages_kept {P : State → Prop}
    (hstage : ∀ op f, IsStage op f → ∀ s, P s → P (f s).state) (s : State) (hs : P s) :
    P (encodeStages s).state := by
  have hclear := hstage _ _ .clear s hs
  have hrank := andThen_kept hclear (hstage _ _ .rank)
  have hbuild := andThen_kept hrank (hstage _ _ .build)
  have hderive := andThen_kept hbuild (hstage _ _ .derive)
  have hpack := andThen_kept hderive (hstage _ _ .pack)
  exact andThen_kept (andThen_kept hpack (hstage _ _ .ser)) (hstage _ _ .tobytes)

/-- What every stage keeps, DECODE keeps (R210, R215). -/
theorem decodeStages_kept {P : State → Prop}
    (hstage : ∀ op f, IsStage op f → ∀ s, P s → P (f s).state) (s : State) (hs : P s) :
    P (decodeStages s).state := by
  have hclear := hstage _ _ .clear s hs
  have hfrombytes := andThen_kept hclear (hstage _ _ .frombytes)
  exact andThen_kept (andThen_kept hfrombytes (hstage _ _ .deser)) (hstage _ _ .walk)

/-- All that a command can be: NOP, SRESET, a stage, or one of the two composites. Each completes. -/
theorem exec_cases (i : Instr) (s : State) :
    exec i s = .next s ∨ exec i s = .next (resetState s) ∨
      (∃ op f, IsStage op f ∧ exec i s = .next (f s).state) ∨
      exec i s = .next (encodeStages s).state ∨ exec i s = .next (decodeStages s).state := by
  cases i with
  | nop => exact .inl rfl
  | sreset => exact .inr (.inl rfl)
  | rank => exact .inr (.inr (.inl ⟨_, _, .rank, rfl⟩))
  | build => exact .inr (.inr (.inl ⟨_, _, .build, rfl⟩))
  | derive => exact .inr (.inr (.inl ⟨_, _, .derive, rfl⟩))
  | pack => exact .inr (.inr (.inl ⟨_, _, .pack, rfl⟩))
  | ser => exact .inr (.inr (.inl ⟨_, _, .ser, rfl⟩))
  | deser => exact .inr (.inr (.inl ⟨_, _, .deser, rfl⟩))
  | tobytes => exact .inr (.inr (.inl ⟨_, _, .tobytes, rfl⟩))
  | frombytes => exact .inr (.inr (.inl ⟨_, _, .frombytes, rfl⟩))
  | walk => exact .inr (.inr (.inl ⟨_, _, .walk, rfl⟩))
  | clear => exact .inr (.inr (.inl ⟨_, _, .clear, rfl⟩))
  | encode => exact .inr (.inr (.inr (.inl rfl)))
  | decode => exact .inr (.inr (.inr (.inr rfl)))

/-! ## What a register write can do -/

/-- All that a register write but the one of CMD can do: nothing, or one of the eight updates of R69 and
R70 within its bound. -/
inductive WriteEffect (s : State) : State → Prop where
  | ignored : WriteEffect s s
  | ilen (w : Word) (h : w.toNat ≤ s.ibufCap) : WriteEffect s { s with ilen := w }
  | tlen (w : Word) (h : w.toNat ≤ Config.tbufCap) : WriteEffect s { s with tlen := w.setWidth 9 }
  | dlen (w : Word) (h : w.toNat ≤ s.dbufCap) : WriteEffect s { s with dlen := w }
  | pad (p : BitVec 3) : WriteEffect s { s with pad := p }
  | sel (w : Word) : WriteEffect s { s with sel := w }
  | ibuf (i : Nat) (b : Byte) (h : i < s.ibufCap) :
      WriteEffect s { s with ibuf := s.ibuf.write i b }
  | tbuf (i : Nat) (b : Byte) (h : i < Config.tbufCap) :
      WriteEffect s { s with tbuf := s.tbuf.write i b }
  | dbuf (i : Nat) (b : Byte) (h : i < s.dbufCap) :
      WriteEffect s { s with dbuf := s.dbuf.write i b }

theorem writeWindow_effect (s : State) (w : Word) : WriteEffect s (writeWindow s w) := by
  unfold writeWindow
  split
  · split
    · exact .ibuf _ _ ‹_›
    · exact .ignored
  · split
    · exact .tbuf _ _ ‹_›
    · exact .ignored
  · split
    · exact .dbuf _ _ ‹_›
    · exact .ignored
  · exact .ignored

theorem writeRegister_effect {s t : State} {r : Nat} {w : Word} (h : writeRegister s r w = some t) :
    WriteEffect s t := by
  unfold writeRegister at h
  split at h
  · cases h
    split
    · exact .ilen w ‹_›
    · exact .ignored
  · cases h
    split
    · exact .tlen w ‹_›
    · exact .ignored
  · cases h
    split
    · exact .dlen w ‹_›
    · exact .ignored
  · cases h
    split
    · exact .pad _
    · exact .ignored
  · cases h; exact .sel w
  · cases h; exact writeWindow_effect s w
  · split at h
    · cases h; exact .ignored
    · cases h

/-! ## What every step keeps -/

/-- `P` is kept by each of the updates of which the steps are made. -/
structure KeptByUpdates (P : State → Prop) : Prop where
  stage : ∀ op f, IsStage op f → ∀ s, P s → P (f s).state
  reset : ∀ s, P s → P (resetState s)
  taken : ∀ s rest, P s → P (takeEvent s rest)
  written : ∀ s t, WriteEffect s t → P s → P t
  lastCmd : ∀ s w, P s → P { s with lastCmd := w }
  illegal : ∀ s w, P s → P (s.reportError .illegalCommand w)
  answered : ∀ s l, P s → P { s with readData := l }

variable {P : State → Prop} {s t : State}

theorem KeptByUpdates.exec (hP : KeptByUpdates P) {i : Instr} (hs : P s) (h : exec i s = .next t) :
    P t := by
  rcases exec_cases i s with he | he | ⟨op, f, hf, he⟩ | he | he <;> rw [he] at h <;> cases h
  · exact hs
  · exact hP.reset s hs
  · exact hP.stage op f hf s hs
  · exact encodeStages_kept hP.stage s hs
  · exact decodeStages_kept hP.stage s hs

theorem KeptByUpdates.writeCommand (hP : KeptByUpdates P) {w : Word} (hs : P s)
    (h : writeCommand s w = .next t) : P t := by
  rcases writeCommand_cases s w with ⟨i, -, hw⟩ | ⟨r, -, hw⟩
  · exact hP.exec (hP.lastCmd s w hs) (hw ▸ h)
  · rw [hw] at h
    cases h
    exact hP.illegal _ w (hP.lastCmd s w hs)

theorem KeptByUpdates.runEvent (hP : KeptByUpdates P) {e : HostEvent} (hs : P s)
    (h : runEvent s e = .next t) : P t := by
  rcases runEvent_cases s t e h with ⟨offset, value, hw, -⟩ | ⟨offset, hr, -⟩ | rfl
  · rcases hostWrite_cases s t _ value hw with ⟨-, hcmd⟩ | ⟨-, hreg⟩
    · exact hP.writeCommand hs hcmd
    · exact hP.written s t (writeRegister_effect hreg) hs
  · obtain ⟨v, -, rfl⟩ := hostRead_cases s t _ hr
    exact hP.answered s _ hs
  · exact hP.reset s hs

/-- The induction behind every invariant: what each update keeps, every step keeps. -/
theorem KeptByUpdates.step (hP : KeptByUpdates P) (hs : P s) (h : step s = .next t) : P t := by
  rcases step_cases s with ⟨-, hstep⟩ | ⟨e, rest, -, hstep⟩ <;> rw [hstep] at h
  · cases h; exact hs
  · exact hP.runEvent (hP.taken s rest hs) h

end Sys2Proof.Machine
end

section
/-! SUPPORT. The table that DERIVE makes (42_table_deriver.md R144): every symbol's codeword is the one of
its place in the chain, for a chain of two or more distinct leaves. -/
namespace Sys2Proof.Machine

/-! ## Bit sequences as numbers -/

theorem testBit_bitsValue (w : Bits) (i : Nat) : (bitsValue w).testBit i = w.getD i false := by
  induction w generalizing i with
  | nil => simp [bitsValue]
  | cons b rest ih =>
    cases i with
    | zero => cases b <;> simp [bitsValue, Nat.testBit_zero, Nat.add_mod]
    | succ i =>
      have hhalf : (b.toNat + 2 * bitsValue rest) / 2 = bitsValue rest := by
        have := b.toNat_le
        omega
      rw [bitsValue, Nat.testBit_succ, hhalf, ih, List.getD_cons_succ]

/-- The bits that `storeBits` stores read back (R144). -/
theorem getLsbD_storeBits (old : BitVec 255) (w : Bits) (i : Nat) (hi : i < w.length)
    (hw : w.length ≤ 255) : (storeBits old w).getLsbD i = w.getD i false := by
  have h255 : i < 255 := by omega
  rw [storeBits, BitVec.getLsbD_or, BitVec.getLsbD_shiftLeft, BitVec.getLsbD_ofNat, testBit_bitsValue]
  simp [hi, h255]

theorem map_getLsbD_storeBits (old : BitVec 255) (w : Bits) (hw : w.length ≤ 255) :
    (List.range w.length).map (storeBits old w).getLsbD = w := by
  apply List.ext_getElem
  · simp
  · intro i _ hi
    rw [List.getElem_map, List.getElem_range, getLsbD_storeBits old w i hi hw,
      List.getD_eq_getElem _ _ hi]

/-! ## Files filled entry by entry -/

/-- Filling a file from a list of entries with distinct symbols: each symbol of the list gets the value
that its entry makes of what stood there, and the others stay as they were. -/
theorem fileAt_foldl_fileSet {α : Type} (g : α → Bits → α) (entries : List (Byte × Bits))
    (hkeys : (entries.map Prod.fst).Nodup) (file : Vector α 256) (sym : Byte) :
    fileAt (entries.foldl (fun f e => fileSet f e.1 (g (fileAt f e.1) e.2)) file) sym =
      (entries.lookup sym).elim (fileAt file sym) (g (fileAt file sym)) := by
  induction entries generalizing file with
  | nil => rfl
  | cons e rest ih =>
    obtain ⟨a, v⟩ := e
    rw [List.map_cons, List.nodup_cons] at hkeys
    rw [List.foldl_cons, ih hkeys.2]
    by_cases hsym : sym = a
    · subst hsym
      have hrest : rest.lookup sym = none := by
        rw [List.lookup_eq_none_iff]
        intro p hp
        have hne : sym ≠ p.1 := fun h => hkeys.1 (List.mem_map.mpr ⟨p, hp, h.symm⟩)
        simpa using hne
      simp [hrest]
    · simp [List.lookup_cons, beq_false_of_ne hsym, fileAt_fileSet_other _ _ _ _ hsym]

theorem fileAt_derivedLengths (entries : List (Byte × Bits)) (hkeys : (entries.map Prod.fst).Nodup)
    (sym : Byte) :
    fileAt (derivedLengths entries) sym =
      (entries.lookup sym).elim 0 (fun w => BitVec.ofNat 8 w.length) := by
  have hzero : fileAt (Vector.replicate 256 (0 : Byte)) sym = 0 := by simp [fileAt]
  rw [derivedLengths, fileAt_foldl_fileSet (fun _ w => BitVec.ofNat 8 w.length) entries hkeys, hzero]

theorem fileAt_derivedBits (old : Vector (BitVec 255) 256) (entries : List (Byte × Bits))
    (hkeys : (entries.map Prod.fst).Nodup) (sym : Byte) :
    fileAt (derivedBits old entries) sym =
      (entries.lookup sym).elim (fileAt old sym) (storeBits (fileAt old sym)) :=
  fileAt_foldl_fileSet storeBits entries hkeys old sym

/-- A table filled from entries with distinct symbols and codewords of 1 to 255 bits holds exactly
those codewords (R31). -/
theorem codeword_of_derived (s : State) (old : Vector (BitVec 255) 256)
    (entries : List (Byte × Bits)) (hkeys : (entries.map Prod.fst).Nodup)
    (hbits : ∀ e ∈ entries, 1 ≤ e.2.length ∧ e.2.length ≤ 255)
    (hlen : s.cwlen = derivedLengths entries) (hcw : s.cwbits = derivedBits old entries) (sym : Byte) :
    codeword s sym = entries.lookup sym := by
  unfold codeword
  rw [hlen, hcw, fileAt_derivedLengths entries hkeys, fileAt_derivedBits old entries hkeys]
  cases h : entries.lookup sym with
  | none => simp
  | some w =>
    obtain ⟨before, after, hmem, -⟩ := List.lookup_eq_some_iff.mp h
    have hw : 1 ≤ w.length ∧ w.length ≤ 255 := hbits (sym, w) (by simp [hmem])
    obtain ⟨h1, h255⟩ := hw
    have hnat : (BitVec.ofNat 8 w.length).toNat = w.length := by
      rw [BitVec.toNat_ofNat]; exact Nat.mod_eq_of_lt (by omega)
    have hne : BitVec.ofNat 8 w.length ≠ 0 := by
      intro h0
      rw [h0] at hnat
      simp at hnat
      omega
    simp only [Option.elim_some, hne, if_false, hnat, map_getLsbD_storeBits _ w h255]

/-! ## The chain code -/

/-- Of a chain of two or more leaves no codeword is empty, and none is longer than the levels (R100). -/
theorem chainCode_length (count i : Nat) (hcount : 2 ≤ count) :
    1 ≤ (chainCode count i).length ∧ (chainCode count i).length ≤ count - 1 := by
  unfold chainCode
  split
  · simp; omega
  · simp; omega

theorem map_fst_chainEntries (r : Bytes) : (chainEntries r).map Prod.fst = r := by
  simp [chainEntries, Function.comp_def]

theorem chainEntries_length_bounds (r : Bytes) (hmin : 2 ≤ r.length) (hmax : r.length ≤ 256) :
    ∀ e ∈ chainEntries r, 1 ≤ e.2.length ∧ e.2.length ≤ 255 := by
  intro e he
  obtain ⟨d, -, rfl⟩ := List.mem_map.mp he
  have := chainCode_length r.length d.2 hmin
  exact ⟨this.1, by show (chainCode r.length d.2).length ≤ 255; omega⟩

/-- The duplicate check passes exactly on distinct leaves, none of them seen before (R144). -/
theorem firstRepeat_eq_none_iff (seen r : Bytes) :
    firstRepeat seen r = none ↔ r.Nodup ∧ ∀ sym ∈ r, sym ∉ seen := by
  induction r generalizing seen with
  | nil => simp [firstRepeat]
  | cons a rest ih =>
    by_cases ha : a ∈ seen
    · simp [firstRepeat, ha]
    · rw [firstRepeat, if_neg (by simpa using ha), ih]
      simp only [List.mem_cons, List.nodup_cons, not_or]
      constructor
      · rintro ⟨hnd, hrest⟩
        refine ⟨⟨fun h => (hrest a h).1 rfl, hnd⟩, ?_⟩
        rintro sym (rfl | hsym)
        · exact ha
        · exact (hrest sym hsym).2
      · rintro ⟨⟨hnotin, hnd⟩, hall⟩
        exact ⟨hnd, fun sym hsym => ⟨fun h => hnotin (h ▸ hsym), hall sym (.inr hsym)⟩⟩

theorem firstRepeat_nil_eq_none_iff (r : Bytes) : firstRepeat [] r = none ↔ r.Nodup := by
  simp [firstRepeat_eq_none_iff]

end Sys2Proof.Machine
end

section
/-! SUPPORT. The invariants of the valid flags and of the code table (10_state.md R39, R31): what keeps
them, stage by stage. -/
namespace Sys2Proof.Machine

/-! ## Parts of files -/

theorem filePart_getElem? (f : Vector Byte 256) (count i : Nat) :
    (filePart f count)[i]? = if i < count then f.toList[i]? else none := by
  simp [filePart, List.getElem?_take]

/-- Two files agree below `count` exactly when these parts of them are the same list. -/
theorem filePart_eq_iff (f g : Vector Byte 256) (count : Nat) :
    filePart f count = filePart g count ↔ ∀ i, i < count → f.toList[i]? = g.toList[i]? := by
  constructor
  · intro h i hi
    have hget := congrArg (·[i]?) h
    simpa [filePart_getElem?, hi] using hget
  · intro h
    apply List.ext_getElem?
    intro i
    rw [filePart_getElem?, filePart_getElem?]
    split
    · exact h i ‹_›
    · rfl

/-- Loading the first `count` entries of one file into another makes the files agree there. -/
theorem filePart_loadFile_filePart (old f : Vector Byte 256) (count : Nat) :
    filePart (loadFile old (filePart f count)) count = filePart f count := by
  rw [filePart_eq_iff]
  intro i hi
  rw [loadFile_toList, List.getElem?_take]
  by_cases h256 : i < 256
  · have hlen : i < (filePart f count).length := by rw [filePart_length]; omega
    rw [if_pos h256, List.getElem?_append_left hlen, filePart_getElem?, if_pos hi]
  · rw [if_neg h256, List.getElem?_eq_none (by simp; omega)]

/-- RANK and DESER load a sequence of at most 256 symbols and its length as the count (R123, R171). -/
theorem filePart_loadFile_ofNat (old : Vector Byte 256) (r : Bytes) (h : r.length ≤ 256) :
    filePart (loadFile old r) (BitVec.ofNat 9 r.length).toNat = r := by
  have hnat : (BitVec.ofNat 9 r.length).toNat = r.length := by
    rw [BitVec.toNat_ofNat]; exact Nat.mod_eq_of_lt (by omega)
  rw [hnat, filePart_loadFile old r h]

/-- The symbols of a serialized tree loaded with their count byte as the count (R171). -/
theorem filePart_loadFile_count (old : Vector Byte 256) (c : Byte) (rest : Bytes)
    (h : c.toNat ≤ rest.length) :
    filePart (loadFile old (rest.take c.toNat)) (c.setWidth 9).toNat = rest.take c.toNat := by
  have hc := c.isLt
  have hlen : (rest.take c.toNat).length = c.toNat := by rw [List.length_take]; omega
  have hcount : (c.setWidth 9).toNat = (rest.take c.toNat).length := by
    rw [BitVec.toNat_setWidth, hlen]; omega
  rw [hcount, filePart_loadFile _ _ (by omega)]

theorem rankList_length_le (s : State) : (rankList s).length ≤ 256 := by
  rw [rankList, filePart_length]; omega

theorem leafList_length (s : State) : (leafList s).length = min s.tn.toNat 256 := by
  rw [leafList, filePart_length]

/-! ## The invariant -/

/-- R39's invariants of the valid flags, with the code table that V_CW vouches for. -/
def Coherent (s : State) : Prop := FlagsCoherent s ∧ TableCoherent s

/-- The invariant depends on the rank order, the tree and the table alone. -/
theorem Coherent.of_keeps {s t : State} (h : Coherent s) (hrank : KeepsRank s t)
    (htree : KeepsTree s t) (htable : KeepsTable s t) : Coherent t := by
  obtain ⟨hr, hn, hvr⟩ := hrank
  obtain ⟨hts, htn, hvt⟩ := htree
  obtain ⟨hlen, hbits, hvc⟩ := htable
  simpa only [Coherent, FlagsCoherent, TableCoherent, leafList, codeword, hr, hn, hvr, hts, htn, hvt,
    hlen, hbits, hvc] using h

/-- With the tree and the table invalid only the rank order is left to agree. -/
theorem coherent_of_treeInvalid {t : State} (htree : TreeInvalid t) (hcw : t.vCw = false)
    (hn : t.vRank = false → t.n = 0) : Coherent t := by
  obtain ⟨hvt, htn⟩ := htree
  simpa [Coherent, FlagsCoherent, TableCoherent, hvt, htn, hcw] using hn

/-- A tree of two or more leaves, its table invalid, whose leaves are the rank order. -/
theorem coherent_of_treeValid {t : State} (hrank : t.vRank = true) (htree : t.vTree = true)
    (hcw : t.vCw = false) (htn : t.tn = t.n) (h2 : 2 ≤ t.tn.toNat)
    (hleaves : leafList t = rankList t) : Coherent t := by
  have hagree : ∀ i, i < t.tn.toNat → t.tsym.toList[i]? = t.rank.toList[i]? := by
    rw [← filePart_eq_iff]
    simpa only [leafList, rankList, ← htn] using hleaves
  refine ⟨⟨?_, fun _ => h2, ?_, ?_, fun _ => ⟨hrank, htn, hagree⟩⟩, ?_⟩
  · simp [hcw]
  · simp [hrank]
  · simp [htree]
  · simp [TableCoherent, hcw]

/-- Invalidating the table keeps the invariant (R45). -/
theorem Coherent.of_tableInvalid {s t : State} (h : Coherent s) (hrank : KeepsRank s t)
    (htree : KeepsTree s t) (hcw : t.vCw = false) : Coherent t := by
  obtain ⟨⟨-, h2, hn, htn, hagree⟩, -⟩ := h
  obtain ⟨hr, hn', hvr⟩ := hrank
  obtain ⟨hts, htn', hvt⟩ := htree
  refine ⟨⟨by simp [hcw], ?_⟩, by simp [TableCoherent, hcw]⟩
  simpa only [hr, hn', hvr, hts, htn', hvt] using ⟨h2, hn, htn, hagree⟩

/-- The table derived from a tree of two or more distinct leaves is the chain code of its leaves
(R142). -/
theorem Coherent.of_tableDerived {s t : State} (h : Coherent s) (hrank : KeepsRank s t)
    (htree : KeepsTree s t) (hvalid : s.vTree = true) (hnd : (leafList s).Nodup)
    (hlen : t.cwlen = derivedLengths (chainEntries (leafList s)))
    (hbits : t.cwbits = derivedBits s.cwbits (chainEntries (leafList s))) : Coherent t := by
  obtain ⟨⟨-, h2, hn, htn, hagree⟩, -⟩ := h
  obtain ⟨hr, hn', hvr⟩ := hrank
  obtain ⟨hts, htn', hvt⟩ := htree
  have hleaves : leafList t = leafList s := by simp only [leafList, hts, htn']
  have hcount : 2 ≤ (leafList s).length ∧ (leafList s).length ≤ 256 := by
    have := h2 hvalid
    rw [leafList_length]; omega
  refine ⟨⟨fun _ => by rw [hvt, hvalid], ?_⟩, fun _ => ?_⟩
  · simpa only [hr, hn', hvr, hts, htn', hvt] using ⟨h2, hn, htn, hagree⟩
  · rw [hleaves]
    refine ⟨hnd, codeword_of_derived t s.cwbits _ ?_ ?_ hlen hbits⟩
    · rwa [map_fst_chainEntries]
    · exact chainEntries_length_bounds _ hcount.1 hcount.2

/-! ## What each stage does to it -/

theorem rankStage_coherent (s : State) : Coherent (rankStage s).state := by
  rcases rankStage_cases s with ⟨f, -, h⟩ | ⟨r, -, h⟩ <;> rw [h]
  · exact coherent_of_treeInvalid ⟨rfl, rfl⟩ rfl (fun _ => rfl)
  · exact coherent_of_treeInvalid ⟨rfl, rfl⟩ rfl (fun hv => nomatch hv)

theorem buildStage_coherent {s : State} (hs : Coherent s) : Coherent (buildStage s).state := by
  obtain ⟨⟨-, -, hn, -, -⟩, -⟩ := hs
  rcases buildStage_cases s with ⟨-, h⟩ | ⟨-, -, h⟩ | ⟨hvr, h2, h⟩ <;> rw [h]
  · exact coherent_of_treeInvalid ⟨rfl, rfl⟩ rfl hn
  · exact coherent_of_treeInvalid ⟨rfl, rfl⟩ rfl hn
  · exact coherent_of_treeValid hvr rfl rfl rfl h2 (filePart_loadFile_filePart s.tsym s.rank s.n.toNat)

theorem deriveStage_coherent {s : State} (hs : Coherent s) : Coherent (deriveStage s).state := by
  rcases deriveStage_cases s with ⟨-, h⟩ | ⟨-, _, -, h⟩ | ⟨hvalid, hnone, h⟩ <;> rw [h]
  · exact hs.of_tableInvalid ⟨rfl, rfl, rfl⟩ ⟨rfl, rfl, rfl⟩ rfl
  · exact hs.of_tableInvalid ⟨rfl, rfl, rfl⟩ ⟨rfl, rfl, rfl⟩ rfl
  · have hnd := (firstRepeat_nil_eq_none_iff _).mp hnone
    exact hs.of_tableDerived ⟨rfl, rfl, rfl⟩ ⟨rfl, rfl, rfl⟩ hvalid hnd rfl rfl

theorem deserStage_coherent (s : State) : Coherent (deserStage s).state := by
  rcases deserStage_cases s with ⟨_, h⟩ | ⟨c, rest, -, hlen, ⟨-, h⟩ | ⟨h2, h⟩⟩ <;> rw [h]
  · exact coherent_of_treeInvalid ⟨rfl, rfl⟩ rfl (fun _ => rfl)
  · exact coherent_of_treeInvalid ⟨rfl, rfl⟩ rfl (fun hv => nomatch hv)
  · have hc := c.isLt
    have htake : (rest.take c.toNat).length = c.toNat := by rw [List.length_take]; omega
    have hcount : c.setWidth 9 = BitVec.ofNat 9 (rest.take c.toNat).length := by
      rw [htake]; exact (BitVec.ofNat_toNat 9 c).symm
    have h2' : 2 ≤ (c.setWidth 9).toNat := by rw [BitVec.toNat_setWidth]; omega
    refine coherent_of_treeValid rfl rfl rfl hcount h2' ?_
    calc filePart (loadFile s.tsym (rest.take c.toNat)) (c.setWidth 9).toNat
        = rest.take c.toNat := filePart_loadFile_count _ c rest hlen
      _ = filePart (loadFile s.rank (rest.take c.toNat))
            (BitVec.ofNat 9 (rest.take c.toNat).length).toNat :=
          (filePart_loadFile_ofNat _ _ (by omega)).symm

/-! ### The stages that touch none of the three files, their flags and counts (R79) -/

/-- RANK, TSYM, CWLEN and CWBITS, their valid flags and counts are the same. -/
def KeepsFiles (s t : State) : Prop := KeepsRank s t ∧ KeepsTree s t ∧ KeepsTable s t

theorem keepsFiles_refl (s : State) : KeepsFiles s s :=
  ⟨⟨rfl, rfl, rfl⟩, ⟨rfl, rfl, rfl⟩, ⟨rfl, rfl, rfl⟩⟩

theorem Coherent.of_keepsFiles {s t : State} (h : Coherent s) (hkeeps : KeepsFiles s t) :
    Coherent t := by
  obtain ⟨hrank, htree, htable⟩ := hkeeps
  exact h.of_keeps hrank htree htable

theorem packStage_keepsFiles (s : State) : KeepsFiles s (packStage s).state := by
  rcases packStage_cases s with ⟨_, _, h⟩ | ⟨_, -, -, -, h⟩ <;> rw [h] <;> exact keepsFiles_refl s

theorem serStage_keepsFiles (s : State) : KeepsFiles s (serStage s).state := by
  rcases serStage_cases s with ⟨_, _, h⟩ | ⟨-, -, h⟩ <;> rw [h] <;> exact keepsFiles_refl s

theorem tobytesStage_keepsFiles (s : State) : KeepsFiles s (tobytesStage s).state := by
  rcases tobytesStage_cases s with ⟨-, h⟩ | ⟨-, h⟩ <;> rw [h] <;> exact keepsFiles_refl s

theorem frombytesStage_keepsFiles (s : State) : KeepsFiles s (frombytesStage s).state := by
  rcases frombytesStage_cases s with ⟨_, h⟩ | ⟨_, -, -, h⟩ <;> rw [h] <;> exact keepsFiles_refl s

theorem walkStage_keepsFiles (s : State) : KeepsFiles s (walkStage s).state := by
  rcases walkStage_cases s with ⟨_, _, h⟩ | ⟨-, -, -, -, h⟩ <;> rw [h] <;> exact keepsFiles_refl s

/-! ## The obligation -/

theorem stage_coherent {op : BitVec 8} {f : State → StageExit} (hf : IsStage op f) {s : State}
    (hs : Coherent s) : Coherent (f s).state := by
  cases hf with
  | rank => exact rankStage_coherent s
  | build => exact buildStage_coherent hs
  | derive => exact deriveStage_coherent hs
  | pack => exact hs.of_keepsFiles (packStage_keepsFiles s)
  | ser => exact hs.of_keepsFiles (serStage_keepsFiles s)
  | deser => exact deserStage_coherent s
  | tobytes => exact hs.of_keepsFiles (tobytesStage_keepsFiles s)
  | frombytes => exact hs.of_keepsFiles (frombytesStage_keepsFiles s)
  | walk => exact hs.of_keepsFiles (walkStage_keepsFiles s)
  | clear => exact coherent_of_treeInvalid ⟨rfl, rfl⟩ rfl (fun _ => rfl)

/-- No register write touches the files (R69, R70). -/
theorem WriteEffect.keepsFiles {s t : State} (h : WriteEffect s t) : KeepsFiles s t := by
  cases h <;> exact keepsFiles_refl s

theorem keptByUpdates_coherent : KeptByUpdates Coherent where
  stage _ _ hf _ hs := stage_coherent hf hs
  reset _ _ := coherent_of_treeInvalid ⟨rfl, rfl⟩ rfl (fun _ => rfl)
  taken s _ hs := hs.of_keepsFiles (keepsFiles_refl s)
  written _ _ hw hs := hs.of_keepsFiles hw.keepsFiles
  lastCmd s _ hs := hs.of_keepsFiles (keepsFiles_refl s)
  illegal s _ hs := hs.of_keepsFiles (keepsFiles_refl s)
  answered s _ hs := hs.of_keepsFiles (keepsFiles_refl s)

/-- Settles O18: each update of which the steps are made keeps the flags and the table coherent. -/
theorem stepKeepsValidFlagsAndTable : Obligations.StepKeepsValidFlagsAndTable := by
  intro s t hflags htable hstep
  exact keptByUpdates_coherent.step ⟨hflags, htable⟩ hstep

end Sys2Proof.Machine
end

section
/-! SUPPORT. The invariants of the lengths (10_state.md R25 to R30) and of the report (R34 to R37), the
accesses that are refused (R41, R74) and the state after reset (R47). -/
namespace Sys2Proof.Machine

/-! ## Lengths of what the stages store -/

theorem toNat_ofNat_le (width value : Nat) : (BitVec.ofNat width value).toNat ≤ value := by
  rw [BitVec.toNat_ofNat]; exact Nat.mod_le _ _

theorem rankInsert_length (buf : Bytes) (sym : Byte) (r : Bytes) :
    (rankInsert buf sym r).length = r.length + 1 := by
  induction r with
  | nil => rfl
  | cons t rest ih =>
    unfold rankInsert
    split
    · rfl
    · simp [ih]

theorem rankSort_length (buf r : Bytes) : (rankSort buf r).length = r.length := by
  induction r with
  | nil => rfl
  | cons sym rest ih => rw [rankSort, rankInsert_length, ih, List.length_cons]

/-- A rank order holds at most the 256 symbols (R20, R121). -/
theorem rankOrder_length_le {buf r : Bytes} (h : rankOrder buf = .ok r) : r.length ≤ 256 := by
  unfold rankOrder at h
  split at h
  · cases h
  · cases h
    rw [rankSort_length]
    calc (symbols.filter _).length ≤ symbols.length := List.length_filter_le _ _
      _ = 256 := by simp [symbols]

/-- A container that parses: the padding, the count byte and its symbols, and the data after them
(R183). -/
theorem fromBytes_ok {buf : Bytes} {c : Container} (h : fromBytes buf = .ok c) :
    ∃ sc rest, buf = c.padding :: sc :: rest ∧ sc.toNat ≤ rest.length ∧ c.padding.toNat ≤ 7 ∧
      c.serializedTree = sc :: rest.take sc.toNat ∧ c.packedData = rest.drop sc.toNat := by
  unfold fromBytes at h
  split at h
  · rename_i p sc rest
    split at h
    · cases h
    · split at h
      · cases h
      · cases h
        rename_i hlen hpad
        simp only [List.length_cons] at hlen
        exact ⟨sc, rest, rfl, by omega, by show p.toNat ≤ 7; omega, rfl, rfl⟩
  · cases h

theorem serializedTree_length_le {buf : Bytes} {c : Container} (h : fromBytes buf = .ok c) :
    c.serializedTree.length ≤ Config.tbufCap := by
  obtain ⟨sc, rest, -, -, -, htree, -⟩ := fromBytes_ok h
  have := sc.isLt
  rw [htree, List.length_cons, List.length_take, Config.tbufCap]
  omega

/-! ## Every length stays within its capacity -/

/-- The lengths of `t` are legal for the capacities of `s`, which `t` has too. -/
def LengthsKept (s t : State) : Prop := KeepsCapacities s t ∧ LengthsInRange t

theorem stage_lengths {op : BitVec 8} {f : State → StageExit} (hf : IsStage op f) {s : State}
    (hs : LengthsInRange s) : LengthsInRange (f s).state := by
  have zero_le (width cap : Nat) : (0 : BitVec width).toNat ≤ cap := by simp
  obtain ⟨hi, ho, ht, hd, hn, htn⟩ := hs
  cases hf with
  | rank =>
    rcases rankStage_cases s with ⟨_, -, h⟩ | ⟨r, hr, h⟩ <;> rw [h]
    · exact ⟨hi, ho, ht, hd, zero_le _ _, zero_le _ _⟩
    · exact ⟨hi, ho, ht, hd, (toNat_ofNat_le 9 _).trans (rankOrder_length_le hr), zero_le _ _⟩
  | build =>
    rcases buildStage_cases s with ⟨-, h⟩ | ⟨-, -, h⟩ | ⟨-, -, h⟩ <;> rw [h]
    · exact ⟨hi, ho, ht, hd, hn, zero_le _ _⟩
    · exact ⟨hi, ho, ht, hd, hn, zero_le _ _⟩
    · exact ⟨hi, ho, ht, hd, hn, hn⟩
  | derive =>
    rcases deriveStage_cases s with ⟨-, h⟩ | ⟨-, _, -, h⟩ | ⟨-, -, h⟩ <;> rw [h] <;>
      exact ⟨hi, ho, ht, hd, hn, htn⟩
  | pack =>
    rcases packStage_cases s with ⟨_, _, h⟩ | ⟨bits, -, -, hfits, h⟩ <;> rw [h]
    · exact ⟨hi, ho, ht, zero_le _ _, hn, htn⟩
    · exact ⟨hi, ho, ht, (toNat_ofNat_le 32 _).trans hfits, hn, htn⟩
  | ser =>
    rcases serStage_cases s with ⟨_, _, h⟩ | ⟨-, hfits, h⟩ <;> rw [h]
    · exact ⟨hi, ho, zero_le _ _, hd, hn, htn⟩
    · have htlen : (1 + s.tn).toNat ≤ Config.tbufCap := by
        rw [BitVec.toNat_add, Config.tbufCap]; simp; omega
      exact ⟨hi, ho, htlen, hd, hn, htn⟩
  | deser =>
    rcases deserStage_cases s with ⟨_, h⟩ | ⟨c, rest, -, -, hends⟩
    · rw [h]
      exact ⟨hi, ho, ht, hd, zero_le _ _, zero_le _ _⟩
    · have hc := c.isLt
      have hn' : (BitVec.ofNat 9 (rest.take c.toNat).length).toNat ≤ 256 := by
        refine (toNat_ofNat_le _ _).trans ?_
        rw [List.length_take]; omega
      have htn' : (c.setWidth 9).toNat ≤ 256 := by rw [BitVec.toNat_setWidth]; omega
      rcases hends with ⟨-, h⟩ | ⟨-, h⟩ <;> rw [h]
      · exact ⟨hi, ho, ht, hd, hn', zero_le _ _⟩
      · exact ⟨hi, ho, ht, hd, hn', htn'⟩
  | tobytes =>
    rcases tobytesStage_cases s with ⟨-, h⟩ | ⟨hfits, h⟩ <;> rw [h]
    · exact ⟨hi, zero_le _ _, ht, hd, hn, htn⟩
    · exact ⟨hi, (toNat_ofNat_le 32 _).trans hfits, ht, hd, hn, htn⟩
  | frombytes =>
    rcases frombytesStage_cases s with ⟨_, h⟩ | ⟨c, hc, hfits, h⟩ <;> rw [h]
    · exact ⟨hi, ho, zero_le _ _, zero_le _ _, hn, htn⟩
    · have htlen := (toNat_ofNat_le 9 _).trans (serializedTree_length_le hc)
      exact ⟨hi, ho, htlen, (toNat_ofNat_le 32 _).trans hfits, hn, htn⟩
  | walk =>
    rcases walkStage_cases s with ⟨_, _, h⟩ | ⟨-, -, -, hfits, h⟩ <;> rw [h]
    · exact ⟨hi, zero_le _ _, ht, hd, hn, htn⟩
    · exact ⟨hi, (toNat_ofNat_le 32 _).trans hfits, ht, hd, hn, htn⟩
  | clear => exact ⟨hi, zero_le _ _, zero_le _ _, zero_le _ _, zero_le _ _, zero_le _ _⟩

theorem WriteEffect.lengths {s t : State} (h : WriteEffect s t) (hs : LengthsInRange s) :
    LengthsInRange t := by
  obtain ⟨hi, ho, ht, hd, hn, htn⟩ := hs
  cases h with
  | ilen w hw => exact ⟨hw, ho, ht, hd, hn, htn⟩
  | tlen w hw =>
    have hw9 : (w.setWidth 9).toNat ≤ Config.tbufCap := by
      rw [BitVec.toNat_setWidth]; exact (Nat.mod_le _ _).trans hw
    exact ⟨hi, ho, hw9, hd, hn, htn⟩
  | dlen w hw => exact ⟨hi, ho, ht, hw, hn, htn⟩
  | _ => exact ⟨hi, ho, ht, hd, hn, htn⟩

theorem WriteEffect.capacities {s t : State} (h : WriteEffect s t) : KeepsCapacities s t := by
  cases h <;> exact ⟨rfl, rfl, rfl⟩

theorem KeepsCapacities.trans {s t u : State} (hst : KeepsCapacities s t) (htu : KeepsCapacities t u) :
    KeepsCapacities s u :=
  ⟨htu.1.trans hst.1, htu.2.1.trans hst.2.1, htu.2.2.trans hst.2.2⟩

theorem lengthsInRange_resetState (s : State) : LengthsInRange (resetState s) := by
  simp [LengthsInRange]

theorem keptByUpdates_lengths (s : State) : KeptByUpdates (LengthsKept s) where
  stage _ _ hf t ht := by
    obtain ⟨-, -, -, -, hcaps, -⟩ := stage_keepsInput hf t
    exact ⟨ht.1.trans hcaps, stage_lengths hf ht.2⟩
  reset t ht := ⟨ht.1, lengthsInRange_resetState t⟩
  taken _ _ ht := ht
  written _ _ hw ht := ⟨ht.1.trans hw.capacities, hw.lengths ht.2⟩
  lastCmd _ _ ht := ht
  illegal _ _ ht := ht
  answered _ _ ht := ht

/-- Settles O19: the capacities never change, and each update of a length is checked against them. -/
theorem stepKeepsLengthsWithinCapacities : Obligations.StepKeepsLengthsWithinCapacities := by
  intro s t hcaps hlengths hstep
  have hkept : LengthsKept s t := (keptByUpdates_lengths s).step ⟨⟨rfl, rfl, rfl⟩, hlengths⟩ hstep
  obtain ⟨⟨hic, hoc, hdc⟩, hlen⟩ := hkept
  refine ⟨⟨hic, hoc, hdc⟩, ?_, hlen⟩
  simpa only [CapsInRange, hic, hoc, hdc] using hcaps

/-! ## The report -/

/-- STATUS, ERRCODE and ERRINFO agree and STAGE is legal. -/
def Reported (s : State) : Prop := ReportCoherent s ∧ StageLegal s

theorem ErrorKind.code_bounds (e : ErrorKind) : 1 ≤ e.code.toNat ∧ e.code.toNat ≤ 11 := by
  cases e <;> decide

theorem reportCoherent_reportError (s : State) (e : ErrorKind) (info : Word) :
    ReportCoherent (s.reportError e info) := by
  refine ⟨?_, ?_, fun _ => e.code_bounds⟩ <;> simp

theorem reportCoherent_reportSuccess (s : State) : ReportCoherent s.reportSuccess := by
  simp [ReportCoherent]

theorem stage_opcode_legal {op : BitVec 8} {f : State → StageExit} (hf : IsStage op f) :
    op.toNat ≤ 9 ∨ op.toNat = 0x0C := by
  cases hf <;> decide

theorem stage_reported {op : BitVec 8} {f : State → StageExit} (hf : IsStage op f) (s : State) :
    Reported (f s).state := by
  obtain ⟨u, hends, rfl, -⟩ := stage_ends hf s
  have hlegal : StageLegal u := stage_opcode_legal hf
  rcases hends with h | ⟨e, info, h⟩ <;> rw [h]
  · exact ⟨reportCoherent_reportSuccess u, hlegal⟩
  · exact ⟨reportCoherent_reportError u e info, hlegal⟩

/-- A register write leaves the report as it was (R70). -/
theorem WriteEffect.reported {s t : State} (h : WriteEffect s t) (hs : Reported s) : Reported t := by
  cases h <;> exact hs

theorem keptByUpdates_reported : KeptByUpdates Reported where
  stage _ _ hf s _ := stage_reported hf s
  reset s _ := by simp [Reported, ReportCoherent, StageLegal]
  taken _ _ hs := hs
  written _ _ hw hs := hw.reported hs
  lastCmd _ _ hs := hs
  illegal s w hs := ⟨reportCoherent_reportError s _ w, hs.2⟩
  answered _ _ hs := hs

/-- Settles O21: a stage ends in the success exit or the error entry, and nothing else but reset writes
the report. -/
theorem stepKeepsReportCoherent : Obligations.StepKeepsReportCoherent := by
  intro s t hreport hstage hstep
  exact keptByUpdates_reported.step ⟨hreport, hstage⟩ hstep

/-! ## Refused accesses -/

theorem step_of_pending {s : State} {e : HostEvent} {rest : List HostEvent} (h : s.pending = e :: rest) :
    step s = runEvent (takeEvent s rest) e := by
  simp only [step, h]

theorem wholeWord_eq_false_iff (offset size : Nat) :
    RegisterAccess.wholeWord offset size = false ↔ size ≠ 4 ∨ offset % 4 ≠ 0 := by
  simp only [RegisterAccess.wholeWord, Bool.and_eq_false_iff, beq_eq_false_iff_ne]

/-- The numbers above the map name no register (R41). -/
theorem defined_eq_false {r : Nat} (hr : r = 15 ∨ 20 ≤ r) : RegisterAccess.defined r = false := by
  simp only [RegisterAccess.defined, Bool.and_eq_false_iff, decide_eq_false_iff_not, bne_eq_false_iff_eq]
  omega

theorem readRegister_reserved (s : State) {r : Nat} (hr : r = 15 ∨ 20 ≤ r) :
    readRegister s r = none := by
  rcases hr with rfl | hr
  · rfl
  · obtain ⟨k, rfl⟩ := Nat.exists_eq_add_of_le' hr
    rfl

theorem hostRead_reserved (s : State) {r : Nat} (hr : r = 15 ∨ 20 ≤ r) :
    hostRead s r = .refused (.reservedRegister r) := by
  simp only [hostRead, readRegister_reserved s hr]

theorem writeRegister_reserved (s : State) (w : Word) {r : Nat} (hr : r = 15 ∨ 20 ≤ r) :
    writeRegister s r w = none := by
  have hdefined := defined_eq_false hr
  rcases hr with rfl | hr
  · rfl
  · obtain ⟨k, rfl⟩ := Nat.exists_eq_add_of_le' hr
    show (if RegisterAccess.defined (k + 20) then some s else none) = none
    simp [hdefined]

theorem hostWrite_reserved (s : State) (w : Word) {r : Nat} (hr : r = 15 ∨ 20 ≤ r) :
    hostWrite s r w = .refused (.reservedRegister r) := by
  cases r with
  | zero => omega
  | succ r => simp only [hostWrite, writeRegister_reserved s w hr]

/-- Settles O11: size and alignment are looked at first, then the register's number. -/
theorem reservedAndNarrowAccessesAreRefused : Obligations.ReservedAndNarrowAccessesAreRefused := by
  intro s rest offset size w hpending
  constructor
  · intro hbad
    have hw := (wholeWord_eq_false_iff offset size).mpr hbad
    rcases hpending with h | h <;> simp [step_of_pending h, runEvent, hw]
  · rintro rfl halign hreserved
    have hw : RegisterAccess.wholeWord offset 4 = true := by simp [RegisterAccess.wholeWord, halign]
    rcases hpending with h | h
    · simp [step_of_pending h, runEvent, hw, hostWrite_reserved _ w hreserved]
    · simp [step_of_pending h, runEvent, hw, hostRead_reserved _ hreserved]

/-! ## The state after reset -/

/-- Whatever the OPEN choices are, the capacities are in the ranges of R7. -/
theorem capsInRange_reset : CapsInRange State.reset := by
  have bounds (choice low span : Nat) (hspan : 0 < span) :
      low ≤ choice % span + low ∧ choice % span + low < span + low := by
    have := Nat.mod_lt choice hspan
    omega
  have hi := bounds Config.ibufChoice 2 (Config.maxCap - 1) (by decide)
  have ho := bounds Config.obufChoice 2 (Config.maxCap - 1) (by decide)
  have hd := bounds Config.dbufChoice 1 Config.maxCap (by decide)
  have hmax : 1 ≤ Config.maxCap := by decide
  simp only [CapsInRange, State.reset, Config.ibufCap, Config.obufCap, Config.dbufCap]
  omega

/-- R47's values. -/
theorem atReset_reset : AtReset State.reset := by
  refine ⟨⟨rfl, rfl, rfl, rfl, rfl, rfl, rfl, rfl, rfl⟩, ⟨rfl, rfl, rfl, rfl, rfl, rfl, rfl, rfl⟩, ?_⟩
  exact ⟨unspecified_read?, unspecified_read?, unspecified_read?, unspecified_read?⟩

/-- Settles O14: the registers and buffers by evaluation, the capacities for every OPEN choice. -/
theorem resetStateHasTheResetValues : Obligations.ResetStateHasTheResetValues :=
  ⟨atReset_reset, capsInRange_reset⟩

theorem buffersCoherent_reset : BuffersCoherent State.reset := by
  refine ⟨⟨unspecified_wf, unspecified_wf, unspecified_wf, unspecified_wf⟩, ⟨?_, ?_, ?_, ?_⟩, ?_⟩
  · exact fun i _ => unspecified_read? i
  · exact fun i _ => unspecified_read? i
  · exact fun i _ => unspecified_read? i
  · exact fun i _ => unspecified_read? i
  · exact fun i hi => absurd hi (Nat.not_lt_zero i)

/-- Settles O17, one component of the invariant after the other. -/
theorem resetMeetsTheInvariant : Obligations.ResetMeetsTheInvariant := by
  have hcoherent : Coherent State.reset := coherent_of_treeInvalid ⟨rfl, rfl⟩ rfl (fun _ => rfl)
  obtain ⟨hflags, htable⟩ := hcoherent
  exact
    { caps := capsInRange_reset
      lengths := by simp [LengthsInRange, State.reset]
      flags := hflags
      table := htable
      report := by simp [ReportCoherent, State.reset]
      stage := by simp [StageLegal, State.reset]
      buffers := buffersCoherent_reset }

end Sys2Proof.Machine
end

section
/-! SUPPORT. Two states with the same results (10_state.md R46): each update of which the stages are made
leaves them with the same results, so each stage does, and ENCODE and DECODE. -/
namespace Sys2Proof.Machine

/-! ## Two states with the same results -/

/-- `s` and `t` have the same input and the same capacities of OBUF and DBUF. -/
structure SameInput (s t : State) : Prop where
  input : inputBytes t = inputBytes s
  obufCap : t.obufCap = s.obufCap
  dbufCap : t.dbufCap = s.dbufCap

/-- `s` and `t` have the same input and the same specified results, whatever the unspecified parts of
their files and buffers hold (R46, R61). The table is not listed: while V_CW = 1 it is the one of
the tree (R31). -/
structure SameResult (s t : State) : Prop extends SameInput s t where
  report : KeepsReport s t
  vRank : t.vRank = s.vRank
  vTree : t.vTree = s.vTree
  vCw : t.vCw = s.vCw
  n : t.n = s.n
  tn : t.tn = s.tn
  tlen : t.tlen = s.tlen
  dlen : t.dlen = s.dlen
  pad : t.pad = s.pad
  olen : t.olen = s.olen
  rankList : rankList t = rankList s
  leafList : leafList t = leafList s
  treeBytes : treeBytes t = treeBytes s
  packedBytes : packedBytes t = packedBytes s
  outputBytes : outputBytes t = outputBytes s

/-- The first `k` bytes of a buffer after a MemWrite of at least that many (R11). -/
theorem memRead_writeBytes_take (space : Space) (m : Memory) (bytes : Bytes) (k : Nat)
    (hk : k ≤ bytes.length) : memRead space (m.writeBytes 0 bytes) 0 k = bytes.take k := by
  conv_rhs => rw [← memRead_writeBytes space m 0 bytes]
  apply List.ext_getElem?
  intro i
  rw [List.getElem?_take, memRead_getElem?, memRead_getElem?]
  by_cases hi : i < k
  · have hlt : i < bytes.length := by omega
    simp [hi, hlt]
  · simp [hi]

/-- After the same MemWrite two buffers hold the same bytes in front. -/
theorem memRead_writeBytes_congr (space : Space) (m m' : Memory) (bytes : Bytes) (k : Nat)
    (hk : k ≤ bytes.length) :
    memRead space (m'.writeBytes 0 bytes) 0 k = memRead space (m.writeBytes 0 bytes) 0 k := by
  rw [memRead_writeBytes_take space m' bytes k hk, memRead_writeBytes_take space m bytes k hk]

namespace SameResult

variable {s t : State}

/-! ### The updates that stages are made of -/

theorem reportError (h : SameResult s t) (e : ErrorKind) (info : Word) :
    SameResult (s.reportError e info) (t.reportError e info) := by
  obtain ⟨-, -, -, -, hstage⟩ := h.report
  exact { h with report := ⟨rfl, rfl, rfl, rfl, hstage⟩ }

theorem reportSuccess (h : SameResult s t) : SameResult s.reportSuccess t.reportSuccess := by
  obtain ⟨-, -, -, -, hstage⟩ := h.report
  exact { h with report := ⟨rfl, rfl, rfl, rfl, hstage⟩ }

theorem startStage (h : SameResult s t) (op : BitVec 8) :
    SameResult (s.startStage op) (t.startStage op) := by
  obtain ⟨hdone, herr, hcode, hinfo, -⟩ := h.report
  exact { h with report := ⟨hdone, herr, hcode, hinfo, rfl⟩ }

theorem invalidateCw (h : SameResult s t) : SameResult s.invalidateCw t.invalidateCw :=
  { h with vCw := rfl }

theorem invalidateTree (h : SameResult s t) : SameResult s.invalidateTree t.invalidateTree :=
  { h with vCw := rfl, vTree := rfl, tn := rfl, leafList := rfl }

theorem invalidateRank (h : SameResult s t) : SameResult s.invalidateRank t.invalidateRank :=
  { h.invalidateTree with vRank := rfl, n := rfl, rankList := rfl }

/-- The same rank order is loaded (R123, R171). -/
theorem loadRank (h : SameResult s t) (r : Bytes) (hr : r.length ≤ 256) :
    SameResult { s with rank := loadFile s.rank r, n := BitVec.ofNat 9 r.length, vRank := true }
      { t with rank := loadFile t.rank r, n := BitVec.ofNat 9 r.length, vRank := true } :=
  { h with
    vRank := rfl
    n := rfl
    rankList := (filePart_loadFile_ofNat t.rank r hr).trans (filePart_loadFile_ofNat s.rank r hr).symm }

/-- The same leaves are loaded (R133, R171). -/
theorem loadTree (h : SameResult s t) (r : Bytes) (count : BitVec 9)
    (hr : ∀ file, filePart (loadFile file r) count.toNat = r) :
    SameResult { s with tsym := loadFile s.tsym r, tn := count, vTree := true }
      { t with tsym := loadFile t.tsym r, tn := count, vTree := true } :=
  { h with vTree := rfl, tn := rfl, leafList := (hr t.tsym).trans (hr s.tsym).symm }

/-- The tables are written, and V_CW with them. -/
theorem writeTable (h : SameResult s t) (len len' : Vector Byte 256)
    (bits bits' : Vector (BitVec 255) 256) :
    SameResult { s with cwlen := len, cwbits := bits, vCw := true }
      { t with cwlen := len', cwbits := bits', vCw := true } :=
  { h with vCw := rfl }

/-- TLEN becomes 0, whatever TBUF holds. -/
theorem clearTreeBytes (h : SameResult s t) (m m' : Memory) :
    SameResult { s with tlen := 0, tbuf := m } { t with tlen := 0, tbuf := m' } :=
  { h with tlen := rfl, treeBytes := rfl }

/-- DLEN and PAD become 0, whatever DBUF holds. -/
theorem clearPacked (h : SameResult s t) (m m' : Memory) :
    SameResult { s with dlen := 0, pad := 0, dbuf := m } { t with dlen := 0, pad := 0, dbuf := m' } :=
  { h with dlen := rfl, pad := rfl, packedBytes := rfl }

/-- OLEN becomes 0, whatever OBUF holds. -/
theorem clearOutput (h : SameResult s t) (m m' : Memory) :
    SameResult { s with olen := 0, obuf := m } { t with olen := 0, obuf := m' } :=
  { h with olen := rfl, outputBytes := rfl }

/-- The same bytes are written to TBUF. -/
theorem writeTreeBytes (h : SameResult s t) (bytes : Bytes) (k : BitVec 9)
    (hk : k.toNat ≤ bytes.length) :
    SameResult { s with tlen := k, tbuf := s.tbuf.writeBytes 0 bytes }
      { t with tlen := k, tbuf := t.tbuf.writeBytes 0 bytes } :=
  { h with tlen := rfl, treeBytes := memRead_writeBytes_congr _ _ _ _ _ hk }

/-- The same bytes are written to DBUF. -/
theorem writePacked (h : SameResult s t) (bytes : Bytes) (k : Word) (p : BitVec 3)
    (hk : k.toNat ≤ bytes.length) :
    SameResult { s with dlen := k, pad := p, dbuf := s.dbuf.writeBytes 0 bytes }
      { t with dlen := k, pad := p, dbuf := t.dbuf.writeBytes 0 bytes } :=
  { h with dlen := rfl, pad := rfl, packedBytes := memRead_writeBytes_congr _ _ _ _ _ hk }

/-- The same bytes are written to OBUF. -/
theorem writeOutput (h : SameResult s t) (bytes : Bytes) (k : Word) (hk : k.toNat ≤ bytes.length) :
    SameResult { s with olen := k, obuf := s.obuf.writeBytes 0 bytes }
      { t with olen := k, obuf := t.obuf.writeBytes 0 bytes } :=
  { h with olen := rfl, outputBytes := memRead_writeBytes_congr _ _ _ _ _ hk }

end SameResult

/-- CLEAR makes the results the same, whatever they were (R228). -/
theorem sameResult_clearedState {s t : State} (h : SameInput s t) :
    SameResult (clearedState s).reportSuccess (clearedState t).reportSuccess :=
  { input := h.input, obufCap := h.obufCap, dbufCap := h.dbufCap
    report := ⟨rfl, rfl, rfl, rfl, rfl⟩
    vRank := rfl, vTree := rfl, vCw := rfl, n := rfl, tn := rfl, tlen := rfl, dlen := rfl, pad := rfl
    olen := rfl, rankList := rfl, leafList := rfl, treeBytes := rfl, packedBytes := rfl
    outputBytes := rfl }

/-! ## Stages -/

/-- Two stages ended the same way, with the same results. -/
structure SameExit (x y : StageExit) : Prop where
  succeeded : y.succeeded = x.succeeded
  state : SameResult x.state y.state

theorem sameExit_raise {s t : State} (h : SameResult s t) (e : ErrorKind) (info : Word) :
    SameExit (raise e info s) (raise e info t) := ⟨rfl, h.reportError e info⟩

theorem sameExit_succeed {s t : State} (h : SameResult s t) : SameExit (succeed s) (succeed t) :=
  ⟨rfl, h.reportSuccess⟩

section
variable {s t : State} (h : SameResult s t)
include h

theorem sameExit_rankStage : SameExit (rankStage s) (rankStage t) := by
  have hstart := (h.startStage 0x01).invalidateRank
  unfold rankStage
  rw [h.input]
  cases hr : rankOrder (inputBytes s) with
  | error f => exact sameExit_raise hstart f.kind f.info
  | ok r => exact sameExit_succeed (hstart.loadRank r (rankOrder_length_le hr))

theorem sameExit_buildStage : SameExit (buildStage s) (buildStage t) := by
  have hstart := (h.startStage 0x02).invalidateTree
  unfold buildStage
  rw [h.vRank, h.n, h.rankList]
  split_ifs
  · exact sameExit_raise hstart _ _
  · exact sameExit_raise hstart _ _
  · refine sameExit_succeed (hstart.loadTree (rankList s) s.n fun file => ?_)
    exact filePart_loadFile_filePart file s.rank s.n.toNat

theorem sameExit_deriveStage : SameExit (deriveStage s) (deriveStage t) := by
  have hstart := (h.startStage 0x03).invalidateCw
  unfold deriveStage
  rw [h.vTree, h.leafList]
  split_ifs
  · exact sameExit_raise hstart _ _
  · cases firstRepeat [] (leafList s) with
    | some sym => exact sameExit_raise hstart _ _
    | none => exact sameExit_succeed (hstart.writeTable _ _ _ _)

theorem sameExit_packStage (hcw : s.vCw = true → codeword t = codeword s) :
    SameExit (packStage s) (packStage t) := by
  have hstart := h.startStage 0x04
  have hfail := hstart.clearPacked s.dbuf.forget t.dbuf.forget
  unfold packStage
  rw [h.vCw, h.dbufCap, h.input]
  split_ifs with hvalid
  · exact sameExit_raise hfail _ _
  · rw [hcw (by simpa using hvalid)]
    cases codeBits (codeword s) (inputBytes s) with
    | error i => exact sameExit_raise hfail _ _
    | ok bits =>
      dsimp only
      split_ifs
      · exact sameExit_raise hfail _ _
      · exact sameExit_succeed (hstart.writePacked _ _ _ (toNat_ofNat_le 32 _))

theorem sameExit_serStage : SameExit (serStage s) (serStage t) := by
  have hstart := h.startStage 0x05
  have hfail := hstart.clearTreeBytes s.tbuf.forget t.tbuf.forget
  unfold serStage
  rw [h.vTree, h.tn, h.leafList]
  split_ifs with _ hfits
  · exact sameExit_raise hfail _ _
  · exact sameExit_raise hfail _ _
  · refine sameExit_succeed (hstart.writeTreeBytes (s.tn.setWidth 8 :: leafList s) (1 + s.tn) ?_)
    rw [List.length_cons, leafList_length, BitVec.toNat_add]
    simp
    omega

theorem sameExit_deserStage : SameExit (deserStage s) (deserStage t) := by
  have hstart := (h.startStage 0x06).invalidateRank
  unfold deserStage
  rw [h.treeBytes, h.tlen]
  cases hbytes : treeBytes s with
  | nil => exact sameExit_raise hstart _ _
  | cons c rest =>
    have hlen := tlen_of_treeBytes hbytes
    have hc := c.isLt
    have htake : (rest.take c.toNat).length ≤ 256 := by rw [List.length_take]; omega
    have hranked := hstart.loadRank (rest.take c.toNat) htake
    dsimp only
    split_ifs
    · exact sameExit_raise hstart _ _
    · exact sameExit_raise hranked _ _
    · refine sameExit_succeed (hranked.loadTree (rest.take c.toNat) (c.setWidth 9) fun file => ?_)
      exact filePart_loadFile_count file c rest (by omega)

theorem sameExit_tobytesStage : SameExit (tobytesStage s) (tobytesStage t) := by
  have hstart := h.startStage 0x07
  have hheld : heldContainer t = heldContainer s := by
    simp only [heldContainer, padByte, h.pad, h.treeBytes, h.packedBytes]
  unfold tobytesStage
  rw [h.obufCap, h.tlen, h.dlen, hheld]
  split_ifs
  · exact sameExit_raise (hstart.clearOutput s.obuf.forget t.obuf.forget) _ _
  · refine sameExit_succeed (hstart.writeOutput (toBytes (heldContainer s)) _ ?_)
    refine (toNat_ofNat_le 32 _).trans_eq ?_
    simp [toBytes, heldContainer]
    omega

theorem sameExit_frombytesStage : SameExit (frombytesStage s) (frombytesStage t) := by
  have hstart := h.startStage 0x08
  have hcleared := hstart.clearPacked s.dbuf.forget t.dbuf.forget
  have hfail := hcleared.clearTreeBytes s.tbuf.forget t.tbuf.forget
  unfold frombytesStage
  rw [h.input, h.dbufCap]
  cases fromBytes (inputBytes s) with
  | error f => exact sameExit_raise hfail _ _
  | ok c =>
    dsimp only
    split_ifs
    · exact sameExit_raise hfail _ _
    · have hdata := hstart.writePacked c.packedData _ (c.padding.setWidth 3) (toNat_ofNat_le 32 _)
      exact sameExit_succeed (hdata.writeTreeBytes c.serializedTree _ (toNat_ofNat_le 9 _))

theorem sameExit_walkStage : SameExit (walkStage s) (walkStage t) := by
  have hstart := h.startStage 0x09
  have hfail := hstart.clearOutput s.obuf.forget t.obuf.forget
  have hbits : dataBits t = dataBits s := by
    simp only [dataBits, h.packedBytes, h.dlen, h.pad]
  unfold walkStage
  rw [h.vTree, h.dlen, h.pad, h.leafList, hbits, h.obufCap]
  split_ifs
  · exact sameExit_raise hfail _ _
  · exact sameExit_raise hfail _ _
  · exact sameExit_raise hfail _ _
  · exact sameExit_raise hfail _ _
  · exact sameExit_succeed (hstart.writeOutput _ _ (toNat_ofNat_le 32 _))

end

/-! ## Composites -/

/-- The codewords are those of the tree while V_CW = 1, so two states with the same tree have the same
ones (R31). -/
theorem SameResult.codeword {s t : State} (h : SameResult s t) (hs : Coherent s) (ht : Coherent t)
    (hvalid : s.vCw = true) : codeword t = codeword s := by
  obtain ⟨-, hstable⟩ := hs
  obtain ⟨-, httable⟩ := ht
  funext sym
  rw [(hstable hvalid).2 sym, (httable (h.vCw.trans hvalid)).2 sym, h.leafList]

/-- Two stages ended the same way, with the same results, in coherent states. -/
structure AlikeExit (x y : StageExit) : Prop extends SameExit x y where
  left : Coherent x.state
  right : Coherent y.state

/-- The next stage of a composite runs in both or in neither, and does the same (R210). -/
theorem AlikeExit.andThen {x y : StageExit} (h : AlikeExit x y) {op : BitVec 8}
    {f : State → StageExit} (hf : IsStage op f)
    (hsame : ∀ s t, Coherent s → Coherent t → SameResult s t → SameExit (f s) (f t)) :
    AlikeExit (x.andThen f) (y.andThen f) := by
  obtain ⟨⟨hsucceeded, hstate⟩, hx, hy⟩ := h
  cases x with
  | success s =>
    cases y with
    | success t => exact ⟨hsame s t hx hy hstate, stage_coherent hf hx, stage_coherent hf hy⟩
    | error t => cases hsucceeded
  | error s =>
    cases y with
    | success t => cases hsucceeded
    | error t => exact ⟨⟨rfl, hstate⟩, hx, hy⟩

theorem alikeExit_clearStage {s t : State} (h : SameInput s t) :
    AlikeExit (clearStage s) (clearStage t) where
  succeeded := rfl
  state := sameResult_clearedState h
  left := coherent_of_treeInvalid ⟨rfl, rfl⟩ rfl (fun _ => rfl)
  right := coherent_of_treeInvalid ⟨rfl, rfl⟩ rfl (fun _ => rfl)

theorem alikeExit_encodeStages {s t : State} (h : SameInput s t) :
    AlikeExit (encodeStages s) (encodeStages t) := by
  have hrank := (alikeExit_clearStage h).andThen .rank fun _ _ _ _ => sameExit_rankStage
  have hbuild := hrank.andThen .build fun _ _ _ _ => sameExit_buildStage
  have hderive := hbuild.andThen .derive fun _ _ _ _ => sameExit_deriveStage
  have hpack := hderive.andThen .pack fun _ _ hs ht hst =>
    sameExit_packStage hst (hst.codeword hs ht)
  have hser := hpack.andThen .ser fun _ _ _ _ => sameExit_serStage
  exact hser.andThen .tobytes fun _ _ _ _ => sameExit_tobytesStage

theorem alikeExit_decodeStages {s t : State} (h : SameInput s t) :
    AlikeExit (decodeStages s) (decodeStages t) := by
  have hfrombytes := (alikeExit_clearStage h).andThen .frombytes fun _ _ _ _ => sameExit_frombytesStage
  have hdeser := hfrombytes.andThen .deser fun _ _ _ _ => sameExit_deserStage
  exact hdeser.andThen .walk fun _ _ _ _ => sameExit_walkStage

/-- ENCODE and DECODE end alike from two states with the same input and capacities. -/
theorem alikeExit_of_composite {i : Instr} (hi : i = .encode ∨ i = .decode) {s s' t t' : State}
    (h : SameInput s s') (ht : exec i s = .next t) (ht' : exec i s' = .next t') :
    ∃ x y, AlikeExit x y ∧ x.state = t ∧ y.state = t' := by
  rcases hi with rfl | rfl <;> cases ht <;> cases ht'
  · exact ⟨_, _, alikeExit_encodeStages h, rfl, rfl⟩
  · exact ⟨_, _, alikeExit_decodeStages h, rfl, rfl⟩

/-- Settles O58: CLEAR makes the results the same, and each stage after it keeps them so. -/
theorem compositesDependOnTheInputAlone : Obligations.CompositesDependOnTheInputAlone := by
  intro i s s' t t' hi hinput hobuf hdbuf ht ht'
  obtain ⟨x, y, halike, rfl, rfl⟩ :=
    alikeExit_of_composite hi ⟨hinput.symm, hobuf.symm, hdbuf.symm⟩ ht ht'
  obtain ⟨⟨-, h⟩, hleft, hright⟩ := halike
  have hcode : x.state.vCw = true → ∀ sym, codeword y.state sym = codeword x.state sym :=
    fun hvalid sym => congrFun (h.codeword hleft hright hvalid) sym
  exact
    ⟨h.report, ⟨h.vRank, h.vTree, h.vCw, h.n, h.tn⟩, ⟨h.tlen, h.dlen, h.pad, h.olen⟩,
      ⟨h.rankList, h.leafList, hcode⟩, h.treeBytes, h.packedBytes, h.outputBytes⟩

end Sys2Proof.Machine
end

section
/-! SUPPORT. The accesses of the host one register at a time (20_memory.md R67 to R73): a read answers the
register's value, a write is the register's update, a write of CMD is the command. -/
namespace Sys2Proof.Machine

/-! ## One access -/

/-- The register accesses of a host script are whole words (R74, R95). -/
theorem wholeWord_register (r : Nat) : RegisterAccess.wholeWord (4 * r) 4 = true := by
  simp [RegisterAccess.wholeWord]

theorem register_of_offset (r : Nat) : 4 * r / 4 = r := Nat.mul_div_cancel_left r (by decide)

theorem step_of_write {s : State} {rest : List HostEvent} {r : Nat} {w : Word}
    (h : s.pending = .write (4 * r) 4 w :: rest) : step s = hostWrite (takeEvent s rest) r w := by
  simp only [step_of_pending h, runEvent, wholeWord_register, if_true, register_of_offset]

theorem step_of_read {s : State} {rest : List HostEvent} {r : Nat} {v : Word}
    (h : s.pending = .read (4 * r) 4 :: rest) (hv : readRegister (takeEvent s rest) r = some v) :
    step s = .next { takeEvent s rest with readData := s.readData ++ [v] } := by
  simp only [step_of_pending h, runEvent, wholeWord_register, if_true, register_of_offset, hostRead, hv,
    takeEvent_readData]

/-- A write of a register other than CMD. -/
theorem step_of_writeRegister {s t : State} {rest : List HostEvent} {r : Nat} {w : Word}
    (h : s.pending = .write (4 * r) 4 w :: rest) (hr : r ≠ 0)
    (ht : writeRegister (takeEvent s rest) r w = some t) : step s = .next t := by
  rw [step_of_write h]
  cases r with
  | zero => exact absurd rfl hr
  | succ r => simp only [hostWrite, ht]

/-! ## CMD (R72) -/

theorem writeCommand_of_decode {s : State} {w : Word} {i : Instr} (h : decode w = .ok i) :
    writeCommand s w = exec i { s with lastCmd := w } := by
  simp only [writeCommand, h]

/-- Settles O4: register 0 is CMD, and the word decodes. -/
theorem stepRunsTheDecodedCommand : Obligations.StepRunsTheDecodedCommand := by
  intro s rest w i hpending hdecode
  calc step s = hostWrite (takeEvent s rest) 0 w := step_of_write (r := 0) hpending
    _ = exec i { takeEvent s rest with lastCmd := w } := writeCommand_of_decode hdecode

/-! ## Reads of the registers (R32, R67) -/

/-- DONE in bit 0 and ERR in bit 1. -/
theorem statusWord_layout (s : State) :
    statusWord s = (BitVec.ofBool s.statusErr ++ BitVec.ofBool s.statusDone).setWidth 32 := by
  unfold statusWord
  cases s.statusErr <;> cases s.statusDone <;> rfl

/-- V_RANK, V_TREE and V_CW in bits 0, 1 and 2. -/
theorem validWord_layout (s : State) :
    validWord s =
      (BitVec.ofBool s.vCw ++ BitVec.ofBool s.vTree ++ BitVec.ofBool s.vRank).setWidth 32 := by
  unfold validWord
  cases s.vCw <;> cases s.vTree <;> cases s.vRank <;> rfl

/-- Settles O7: one row of R32's map after the other; the two flag words bit by bit. -/
theorem registerReadReturnsTheRegister : Obligations.RegisterReadReturnsTheRegister := by
  intro s rest r v hpending hrow
  refine step_of_read hpending ?_
  rw [← statusWord_layout, ← validWord_layout] at hrow
  simp only [List.mem_cons, Prod.mk.injEq, List.not_mem_nil, or_false] at hrow
  rcases hrow with h | h | h | h | h | h | h | h | h | h | h | h | h | h | h | h | h | h <;>
    obtain ⟨rfl, rfl⟩ := h <;> rfl

/-! ## Writes of the scalar registers (R70) -/

theorem writeRegister_readOnly (s : State) (w : Word) {r : Nat}
    (hr : r ∈ [1, 2, 3, 4, 5, 7, 11, 12, 16, 17, 18, 19]) : writeRegister s r w = some s := by
  fin_cases hr <;> rfl

/-- Settles O10: each clause is `writeRegister` at its register. -/
theorem scalarWritesRespectTheirBounds : Obligations.ScalarWritesRespectTheirBounds := by
  intro s rest r w hpending
  simp only [BitVec.ofNat_toNat]
  refine ⟨?ilen, ?tlen, ?dlen, ?pad, ?sel, ?readOnly⟩
  case readOnly =>
    intro hr
    have hne : r ≠ 0 := by rintro rfl; revert hr; decide
    exact step_of_writeRegister hpending hne (writeRegister_readOnly _ w hr)
  all_goals
    rintro rfl
    exact step_of_writeRegister hpending (by decide) rfl

/-! ## Bus addresses (R73) -/

/-- Settles O12: HCE_BASE is a multiple of 4, whatever the OPEN choice behind it is. -/
theorem registerAddressesAreWordAligned : Obligations.RegisterAddressesAreWordAligned := by
  intro r
  constructor
  · rw [registerAddress, Config.hceBase]
    omega
  · have hle : Config.hceBase ≤ Config.hceBase + 4 * r := Nat.le_add_right _ _
    rw [registerAddress, busOffset, if_pos hle, Nat.add_sub_cancel_left]

end Sys2Proof.Machine
end

section
/-! SUPPORT. The window on the element spaces, SEL and DATA (20_memory.md R68, R69), and the accesses of
LOAD, which write the input through it (R66, 30_encoding.md R95). -/
namespace Sys2Proof.Machine

/-! ## The fields of SEL (R38) -/

theorem selSpace_eq (sel : Word) : selSpace sel = sel.toNat / 2 ^ 28 := by
  have := sel.isLt
  rw [selSpace, BitVec.extractLsb'_toNat, Nat.shiftRight_eq_div_pow]
  omega

theorem selIndex_eq (sel : Word) : selIndex sel = sel.toNat % 2 ^ 28 := by
  rw [selIndex, BitVec.extractLsb'_toNat, Nat.shiftRight_zero]

/-! ## Reads of DATA (R68) -/

/-- The window shows a specified element zero-extended. -/
theorem readWindow_of_specified {s : State} {space i : Nat} {b : Byte} (hspace : space = selSpace s.sel)
    (hi : i = selIndex s.sel) (h : specifiedElement s space i = some b) :
    readWindow s = b.setWidth 32 := by
  subst hspace hi
  simp only [readWindow, h]

theorem bufferElement_of_lt {cap i : Nat} {m : Memory} {b : Byte} (hi : i < cap)
    (hb : m.read? i = some b) : bufferElement cap m i = some b := by
  rw [bufferElement, if_pos hi, hb]

theorem fileElement_of_lt {valid : Bool} {count i : Nat} {f : Vector Byte 256} {b : Byte}
    (hvalid : valid = true) (hi : i < count) (hb : f.toList[i]? = some b) :
    fileElement valid count f i = some b := by
  rw [fileElement, if_pos ⟨hvalid, hi⟩, hb]

theorem cwlenElement_of_valid {s : State} {i : Nat} {b : Byte} (hvalid : s.vCw = true)
    (hb : s.cwlen.toList[i]? = some b) : cwlenElement s i = some b := by
  rw [cwlenElement, if_pos hvalid, hb]

/-- A bit inside the codeword of its symbol. -/
theorem cwbitElement_of_lt {s : State} {i : Nat} {len : Byte} {bits : BitVec 255}
    (hvalid : s.vCw = true) (hlen : s.cwlen.toList[i / 256]? = some len)
    (hbits : s.cwbits.toList[i / 256]? = some bits) (hi : i % 256 < len.toNat) :
    cwbitElement s i = some (BitVec.ofNat 8 (bits.getLsbD (i % 256)).toNat) := by
  simp only [cwbitElement, hlen, hbits, hvalid, hi, and_self, if_true]

/-- A bit as an element, zero-extended. -/
theorem setWidth_bitElement (b : Bool) :
    (BitVec.ofNat 8 b.toNat).setWidth 32 = if b = true then (1 : Word) else 0 := by
  cases b <;> rfl

/-- Settles O8: the word is the one in the window, space by space. -/
theorem dataReadReturnsTheSelectedElement : Obligations.DataReadReturnsTheSelectedElement := by
  intro s rest space i hpending hspace hi
  have shows {b : Byte} (h : specifiedElement (takeEvent s rest) space i = some b) :
      readWindow (takeEvent s rest) = b.setWidth 32 :=
    readWindow_of_specified (hspace.trans (selSpace_eq s.sel).symm) (hi.trans (selIndex_eq s.sel).symm) h
  refine ⟨readWindow (takeEvent s rest), step_of_read (r := 14) hpending rfl,
    ?ibuf, ?obuf, ?tbuf, ?dbuf, ?rank, ?tsym, ?cwlen, ?cwbit⟩
  case rank =>
    rintro rfl hvalid hlt b hb
    exact shows (fileElement_of_lt hvalid hlt hb)
  case tsym =>
    rintro rfl hvalid hlt b hb
    exact shows (fileElement_of_lt hvalid hlt hb)
  case cwlen =>
    rintro rfl hvalid b hb
    exact shows (cwlenElement_of_valid hvalid hb)
  case cwbit =>
    rintro rfl hvalid len bits hlen hbits hlt
    exact (shows (cwbitElement_of_lt hvalid hlen hbits hlt)).trans (setWidth_bitElement _)
  all_goals
    rintro rfl hlt b hb
    exact shows (bufferElement_of_lt hlt hb)

/-! ## Writes of DATA (R69) -/

theorem writeWindow_ibuf {s : State} (w : Word) (hspace : selSpace s.sel = 0)
    (hi : selIndex s.sel < s.ibufCap) :
    writeWindow s w = { s with ibuf := s.ibuf.write (selIndex s.sel) (w.setWidth 8) } := by
  simp only [writeWindow, hspace, Space.ofNumber, hi, if_true]

theorem writeWindow_tbuf {s : State} (w : Word) (hspace : selSpace s.sel = 2)
    (hi : selIndex s.sel < Config.tbufCap) :
    writeWindow s w = { s with tbuf := s.tbuf.write (selIndex s.sel) (w.setWidth 8) } := by
  simp only [writeWindow, hspace, Space.ofNumber, hi, if_true]

theorem writeWindow_dbuf {s : State} (w : Word) (hspace : selSpace s.sel = 3)
    (hi : selIndex s.sel < s.dbufCap) :
    writeWindow s w = { s with dbuf := s.dbuf.write (selIndex s.sel) (w.setWidth 8) } := by
  simp only [writeWindow, hspace, Space.ofNumber, hi, if_true]

theorem space_of_number {k : Nat} {space : Space} (h : Space.ofNumber k = some space) :
    k = space.number := by
  unfold Space.ofNumber at h
  split at h <;> cases h <;> rfl

/-- Outside the three writable buffers a write of DATA is ignored. -/
theorem writeWindow_ignored {s : State} (w : Word)
    (hibuf : ¬(selSpace s.sel = 0 ∧ selIndex s.sel < s.ibufCap))
    (htbuf : ¬(selSpace s.sel = 2 ∧ selIndex s.sel < Config.tbufCap))
    (hdbuf : ¬(selSpace s.sel = 3 ∧ selIndex s.sel < s.dbufCap)) : writeWindow s w = s := by
  unfold writeWindow
  split
  case h_1 h => exact if_neg fun hi => hibuf ⟨space_of_number h, hi⟩
  case h_2 h => exact if_neg fun hi => htbuf ⟨space_of_number h, hi⟩
  case h_3 h => exact if_neg fun hi => hdbuf ⟨space_of_number h, hi⟩
  case h_4 => rfl

theorem read?_write (m : Memory) (i : Nat) (v : Byte) (j : Nat) :
    (m.write i v).read? j = if j = i then some v else m.read? j := by
  split
  · next h => rw [h, read?_write_same]
  · next h => exact read?_write_other m i j v h

/-- Settles O9: the four ways `writeWindow` can go, and what one byte written does to a read. -/
theorem dataWriteStoresOnlyInWritableSpaces : Obligations.DataWriteStoresOnlyInWritableSpaces := by
  intro s rest w space i hpending hspace hi
  rw [← selSpace_eq] at hspace
  rw [← selIndex_eq] at hi
  subst hspace hi
  refine ⟨writeWindow (takeEvent s rest) w, step_of_writeRegister (r := 14) hpending (by decide) rfl,
    ?ibuf, ?tbuf, ?dbuf, ?ignored⟩
  case ibuf =>
    rintro ⟨hspace, hi⟩
    rw [writeWindow_ibuf (s := takeEvent s rest) w hspace hi]
    exact ⟨rfl, rfl, read?_write _ _ _⟩
  case tbuf =>
    rintro ⟨hspace, hi⟩
    rw [writeWindow_tbuf (s := takeEvent s rest) w hspace hi]
    exact ⟨rfl, rfl, read?_write _ _ _⟩
  case dbuf =>
    rintro ⟨hspace, hi⟩
    rw [writeWindow_dbuf (s := takeEvent s rest) w hspace hi]
    exact ⟨rfl, rfl, read?_write _ _ _⟩
  case ignored =>
    exact writeWindow_ignored (s := takeEvent s rest) w

/-! ## LOAD (R66, R95) -/

theorem run_succ_of_step {s t : State} (h : step s = .next t) (k : Nat) :
    Sys2Proof.core.run (k + 1) s = Sys2Proof.core.run k t := by
  have hcore : Sys2Proof.core.step s = .next t := h
  simp only [Host.Core.run, hcore]

theorem selOf_ibuf_toNat {i : Nat} (hi : i < 2 ^ 28) : (selOf .ibuf i).toNat = i := by
  rw [selOf, Space.number, Nat.zero_mul, Nat.zero_add, BitVec.toNat_ofNat, Nat.mod_eq_of_lt (by omega)]

/-- The first access of a PUT sets SEL (R70). -/
theorem step_of_scriptSel {s : State} {rest : List HostEvent} {w : Word}
    (h : s.pending = scriptWr 13 w :: rest) :
    step s = .next { takeEvent s rest with sel := w } :=
  step_of_writeRegister (r := 13) h (by decide) rfl

/-- The second access of a PUT into IBUF stores its byte (R69). -/
theorem step_of_scriptData {s : State} {i : Nat} {b : Byte} {rest : List HostEvent}
    (h : s.pending = scriptWr 14 (b.setWidth 32) :: rest) (hsel : s.sel = selOf .ibuf i)
    (hi : i < s.ibufCap) (hcap : s.ibufCap ≤ Config.maxCap) :
    step s = .next { takeEvent s rest with ibuf := s.ibuf.write i b } := by
  have hlt : i < 2 ^ 28 := by rw [Config.maxCap] at hcap; omega
  have hspace : selSpace s.sel = 0 := by
    rw [selSpace_eq, hsel, selOf_ibuf_toNat hlt, Nat.div_eq_of_lt hlt]
  have hindex : selIndex s.sel = i := by
    rw [selIndex_eq, hsel, selOf_ibuf_toNat hlt, Nat.mod_eq_of_lt hlt]
  have hbyte : (b.setWidth 32).setWidth 8 = b := by simp
  have hwrite := writeWindow_ibuf (s := takeEvent s rest) (b.setWidth 32) hspace (hindex ▸ hi)
  rw [takeEvent_sel, hindex, hbyte] at hwrite
  exact step_of_writeRegister (r := 14) h (by decide) (congrArg some hwrite)

/-- The two accesses of one PUT into IBUF. -/
theorem run_scriptPut {s : State} {i : Nat} {b : Byte} {rest : List HostEvent}
    (h : s.pending = scriptPut .ibuf i b ++ rest) (hi : i < s.ibufCap) (hcap : s.ibufCap ≤ Config.maxCap)
    (k : Nat) :
    Sys2Proof.core.run (k + 2) s =
      Sys2Proof.core.run k
        { s with
          ibuf := s.ibuf.write i b, sel := selOf .ibuf i, pending := rest,
          accesses := s.accesses + 2 } := by
  have hput :=
    step_of_scriptData (b := b) (rest := rest)
      (s := { takeEvent s (scriptWr 14 (b.setWidth 32) :: rest) with sel := selOf .ibuf i })
      rfl rfl hi hcap
  exact (run_succ_of_step (step_of_scriptSel h) (k + 1)).trans (run_succ_of_step hput k)

/-- The PUTs of LOAD store the bytes from index `i` on, two accesses each. -/
theorem run_scriptPutAll (bytes : Bytes) (s : State) (i : Nat) (rest : List HostEvent)
    (h : s.pending = scriptPutAll i bytes ++ rest) (hfits : i + bytes.length ≤ s.ibufCap)
    (hcap : s.ibufCap ≤ Config.maxCap) (k : Nat) :
    ∃ sel accesses,
      Sys2Proof.core.run (2 * bytes.length + k) s =
        Sys2Proof.core.run k
          { s with ibuf := s.ibuf.writeBytes i bytes, sel, pending := rest, accesses } := by
  induction bytes generalizing s i with
  | nil =>
    refine ⟨s.sel, s.accesses, ?_⟩
    rw [show rest = s.pending from h.symm, List.length_nil, Nat.mul_zero, Nat.zero_add]
    rfl
  | cons b bytes ih =>
    rw [scriptPutAll, List.append_assoc] at h
    rw [List.length_cons] at hfits
    have hsteps : 2 * (b :: bytes).length + k = 2 * bytes.length + k + 2 := by
      rw [List.length_cons]; omega
    rw [hsteps, run_scriptPut h (by omega) hcap]
    exact ih _ (i + 1) rfl (by show i + 1 + bytes.length ≤ s.ibufCap; omega) hcap

/-- The last access of LOAD sets ILEN (R70). -/
theorem step_of_scriptIlen {s : State} {rest : List HostEvent} {w : Word}
    (h : s.pending = scriptWr 6 w :: rest) (hw : w.toNat ≤ s.ibufCap) :
    step s = .next { takeEvent s rest with ilen := w } :=
  step_of_writeRegister (r := 6) h (by decide) (congrArg some (if_pos hw))

theorem sameFrom_writeBytes (m : Memory) (bytes : Bytes) :
    SameFrom bytes.length m (m.writeBytes 0 bytes) := by
  refine ⟨writeBytes_epoch m 0 bytes, fun i hi => ?_⟩
  rw [read?_writeBytes, if_neg (by omega)]

/-- Settles O13: the PUTs fill IBUF from index 0, and the last access writes ILEN. -/
theorem loadSuppliesTheInputBuffer : Obligations.LoadSuppliesTheInputBuffer := by
  intro s bytes rest hcaps hfits hpending
  obtain ⟨⟨-, hcap⟩, -, -⟩ := hcaps
  rw [scriptLoad, List.append_assoc] at hpending
  obtain ⟨sel, accesses, hrun⟩ := run_scriptPutAll bytes s 0 _ hpending (by omega) hcap 1
  have hlen : (BitVec.ofNat 32 bytes.length).toNat = bytes.length := by
    rw [Config.maxCap] at hcap
    rw [BitVec.toNat_ofNat, Nat.mod_eq_of_lt (by omega)]
  have hilen :=
    step_of_scriptIlen (w := BitVec.ofNat 32 bytes.length) (rest := rest)
      (s := { s with
        ibuf := s.ibuf.writeBytes 0 bytes, sel,
        pending := scriptWr 6 (BitVec.ofNat 32 bytes.length) :: rest, accesses })
      rfl (hlen.trans_le hfits)
  refine ⟨_, hrun.trans (run_succ_of_step hilen 0), ?_, sameFrom_writeBytes s.ibuf bytes, rfl⟩
  show memRead .ibuf (s.ibuf.writeBytes 0 bytes) 0 (BitVec.ofNat 32 bytes.length).toNat = bytes
  rw [hlen, memRead_writeBytes]

end Sys2Proof.Machine
end

section
/-! SUPPORT. The buffers stay coherent (20_memory.md R61): a write inside a buffer keeps it canonical and
in range, and what a stage stores in OBUF covers the OLEN it sets (10_state.md R26). -/
namespace Sys2Proof.Machine

/-! ## One buffer -/

/-- A buffer in canonical form that lists nothing outside its index range. -/
def Fits (cap : Nat) (m : Memory) : Prop := m.wf ∧ InBounds cap m

/-- Every byte of a buffer below `count` is specified. -/
def SpecifiedBelow (count : Nat) (m : Memory) : Prop := ∀ i, i < count → (m.read? i).isSome = true

theorem fits_forget (cap : Nat) (m : Memory) : Fits cap m.forget :=
  ⟨forget_wf m, fun i _ => forget_read? m i⟩

theorem Fits.writeBytes {cap base : Nat} {m : Memory} {bytes : Bytes} (h : Fits cap m)
    (hin : base + bytes.length ≤ cap) : Fits cap (m.writeBytes base bytes) := by
  refine ⟨writeBytes_wf m base bytes h.1, fun i hi => ?_⟩
  have hout : ¬(base ≤ i ∧ i < base + bytes.length) := by omega
  rw [read?_writeBytes, if_neg hout]
  exact h.2 i hi

/-- One byte is a run of length one. -/
theorem Fits.write {cap i : Nat} {m : Memory} (h : Fits cap m) (hi : i < cap) (b : Byte) :
    Fits cap (m.write i b) :=
  h.writeBytes (base := i) (bytes := [b]) hi

theorem specifiedBelow_zero (m : Memory) : SpecifiedBelow (0 : Word).toNat m :=
  fun _ hi => absurd hi (Nat.not_lt_zero _)

theorem specifiedBelow_writeBytes {count : Nat} (m : Memory) {bytes : Bytes}
    (hcount : count ≤ bytes.length) : SpecifiedBelow count (m.writeBytes 0 bytes) := by
  intro i hi
  have hlt : i < bytes.length := by omega
  have hin : 0 ≤ i ∧ i < 0 + bytes.length := by omega
  rw [read?_writeBytes, if_pos hin, Nat.sub_zero, List.getElem?_eq_getElem hlt]
  rfl

/-! ## The four buffers -/

theorem buffersCoherent_iff (s : State) :
    BuffersCoherent s ↔
      Fits s.ibufCap s.ibuf ∧ Fits s.obufCap s.obuf ∧ Fits Config.tbufCap s.tbuf ∧
        Fits s.dbufCap s.dbuf ∧ SpecifiedBelow s.olen.toNat s.obuf := by
  unfold BuffersCoherent Fits SpecifiedBelow
  tauto

/-- The container that TOBYTES assembles has the length that R182 checks. -/
theorem toBytes_heldContainer_length (s : State) :
    (toBytes (heldContainer s)).length = 1 + s.tlen.toNat + s.dlen.toNat := by
  simp only [toBytes, heldContainer, List.length_cons, List.length_append, treeBytes_length,
    packedBytes_length]
  omega

/-- The bytes that SER stores fit TBUF: the count byte and at most 255 leaves (R167). -/
theorem fits_serializedBytes {s : State} (h : Fits Config.tbufCap s.tbuf) (htn : s.tn.toNat ≤ 255) :
    Fits Config.tbufCap ((s.tbuf.writeBytes 0 [s.tn.setWidth 8]).writeBytes 1 (leafList s)) := by
  refine (h.writeBytes ?_).writeBytes ?_
  · simp [Config.tbufCap]
  · rw [leafList_length, Config.tbufCap]
    omega

theorem stage_buffersCoherent {op : BitVec 8} {f : State → StageExit} (hf : IsStage op f) {s : State}
    (hs : BuffersCoherent s) : BuffersCoherent (f s).state := by
  obtain ⟨hi, ho, ht, hd, hspec⟩ := (buffersCoherent_iff s).mp hs
  rw [buffersCoherent_iff]
  cases hf with
  | rank =>
    rcases rankStage_cases s with ⟨_, -, h⟩ | ⟨_, -, h⟩ <;> rw [h] <;> exact ⟨hi, ho, ht, hd, hspec⟩
  | build =>
    rcases buildStage_cases s with ⟨-, h⟩ | ⟨-, -, h⟩ | ⟨-, -, h⟩ <;> rw [h] <;>
      exact ⟨hi, ho, ht, hd, hspec⟩
  | derive =>
    rcases deriveStage_cases s with ⟨-, h⟩ | ⟨-, _, -, h⟩ | ⟨-, -, h⟩ <;> rw [h] <;>
      exact ⟨hi, ho, ht, hd, hspec⟩
  | pack =>
    rcases packStage_cases s with ⟨_, _, h⟩ | ⟨bits, -, -, hfits, h⟩ <;> rw [h]
    · exact ⟨hi, ho, ht, fits_forget _ _, hspec⟩
    · exact ⟨hi, ho, ht, hd.writeBytes (by omega), hspec⟩
  | ser =>
    rcases serStage_cases s with ⟨_, _, h⟩ | ⟨-, hfits, h⟩ <;> rw [h]
    · exact ⟨hi, ho, fits_forget _ _, hd, hspec⟩
    · exact ⟨hi, ho, fits_serializedBytes ht hfits, hd, hspec⟩
  | deser =>
    rcases deserStage_cases s with ⟨_, h⟩ | ⟨_, _, -, -, ⟨-, h⟩ | ⟨-, h⟩⟩ <;> rw [h] <;>
      exact ⟨hi, ho, ht, hd, hspec⟩
  | tobytes =>
    have hlen := toBytes_heldContainer_length s
    rcases tobytesStage_cases s with ⟨-, h⟩ | ⟨hfits, h⟩ <;> rw [h]
    · exact ⟨hi, fits_forget _ _, ht, hd, specifiedBelow_zero _⟩
    · have hcovers : (BitVec.ofNat 32 (1 + s.tlen.toNat + s.dlen.toNat)).toNat ≤
          (toBytes (heldContainer s)).length := hlen ▸ toNat_ofNat_le 32 _
      exact ⟨hi, ho.writeBytes (by omega), ht, hd, specifiedBelow_writeBytes _ hcovers⟩
  | frombytes =>
    rcases frombytesStage_cases s with ⟨_, h⟩ | ⟨c, hc, hfits, h⟩ <;> rw [h]
    · exact ⟨hi, ho, fits_forget _ _, fits_forget _ _, hspec⟩
    · have htree := serializedTree_length_le hc
      exact ⟨hi, ho, ht.writeBytes (by omega), hd.writeBytes (by omega), hspec⟩
  | walk =>
    rcases walkStage_cases s with ⟨_, _, h⟩ | ⟨-, -, -, hfits, h⟩ <;> rw [h]
    · exact ⟨hi, fits_forget _ _, ht, hd, specifiedBelow_zero _⟩
    · have hcovers := toNat_ofNat_le 32 (walk (leafList s) (dataBits s)).1.length
      exact ⟨hi, ho.writeBytes (by omega), ht, hd, specifiedBelow_writeBytes _ hcovers⟩
  | clear =>
    exact ⟨hi, fits_forget _ _, fits_forget _ _, fits_forget _ _, specifiedBelow_zero _⟩

/-- A register write stores at most one byte, inside its buffer, and never in OBUF or OLEN (R69, R70). -/
theorem WriteEffect.buffersCoherent {s t : State} (h : WriteEffect s t) (hs : BuffersCoherent s) :
    BuffersCoherent t := by
  obtain ⟨hi, ho, ht, hd, hspec⟩ := (buffersCoherent_iff s).mp hs
  rw [buffersCoherent_iff]
  cases h with
  | ibuf i b hlt => exact ⟨hi.write hlt b, ho, ht, hd, hspec⟩
  | tbuf i b hlt => exact ⟨hi, ho, ht.write hlt b, hd, hspec⟩
  | dbuf i b hlt => exact ⟨hi, ho, ht, hd.write hlt b, hspec⟩
  | _ => exact ⟨hi, ho, ht, hd, hspec⟩

theorem buffersCoherent_resetState (s : State) : BuffersCoherent (resetState s) :=
  (buffersCoherent_iff _).mpr
    ⟨fits_forget _ _, fits_forget _ _, fits_forget _ _, fits_forget _ _, specifiedBelow_zero _⟩

theorem keptByUpdates_buffersCoherent : KeptByUpdates BuffersCoherent where
  stage _ _ hf _ hs := stage_buffersCoherent hf hs
  reset s _ := buffersCoherent_resetState s
  taken _ _ hs := hs
  written _ _ hw hs := hw.buffersCoherent hs
  lastCmd _ _ hs := hs
  illegal _ _ hs := hs
  answered _ _ hs := hs

/-- Settles O20: every store of a stage or of the host lies inside its buffer, and a stage that sets OLEN
has written the bytes below it. -/
theorem stepKeepsBuffersCoherent : Obligations.StepKeepsBuffersCoherent := by
  intro s t hs hstep
  exact keptByUpdates_buffersCoherent.step hs hstep

end Sys2Proof.Machine
end

section
/-! SUPPORT. The command words (30_encoding.md R90 to R94): a word is its RSV and OP fields, and `decode`
accepts exactly the words with a zero RSV field and an opcode of the map of R92. -/
namespace Sys2Proof

/-! ## The fields of a command word (R90) -/

theorem opField_toNat (w : Word) : (opField w).toNat = w.toNat % 256 := by
  simp [opField, BitVec.extractLsb'_toNat]

theorem rsvField_eq_zero_iff (w : Word) : rsvField w = 0 ↔ w.toNat / 256 = 0 := by
  have hw := w.isLt
  rw [← BitVec.toNat_inj, rsvField, BitVec.extractLsb'_toNat, Nat.shiftRight_eq_div_pow]
  simp only [BitVec.ofNat_eq_ofNat, BitVec.toNat_ofNat]
  omega

theorem encode_toNat (i : Instr) : (encode i).toNat = (opcode i).toNat := by
  have hop := (opcode i).isLt
  rw [encode, BitVec.toNat_setWidth]
  omega

/-- A word is a command's word exactly when its RSV field is zero and its OP field the command's
opcode (R91). -/
theorem eq_encode_iff (w : Word) (i : Instr) :
    w = encode i ↔ rsvField w = 0 ∧ opField w = opcode i := by
  have hop := (opcode i).isLt
  rw [rsvField_eq_zero_iff, ← BitVec.toNat_inj, ← BitVec.toNat_inj, encode_toNat, opField_toNat]
  omega

/-! ## The opcode map (R92) -/

theorem commandOfOpcode_opcode (i : Instr) : commandOfOpcode (opcode i).toNat = some i := by
  cases i <;> rfl

theorem commandOfOpcode_eq_some_iff (op : BitVec 8) (i : Instr) :
    commandOfOpcode op.toNat = some i ↔ op = opcode i := by
  constructor
  · intro h
    rw [← BitVec.toNat_inj]
    unfold commandOfOpcode at h
    split at h <;> cases h <;> assumption
  · rintro rfl
    exact commandOfOpcode_opcode i

/-- The reserved opcodes of R94. -/
theorem commandOfOpcode_eq_none_iff (op : Nat) :
    commandOfOpcode op = none ↔ op = 0x0D ∨ op = 0x0E ∨ 0x10 ≤ op := by
  unfold commandOfOpcode
  split
  case h_15 => simp only [imp_false, true_iff] at *; omega
  all_goals simp

/-! ## The decoder (R91) -/

theorem decode_of_rsvField_ne_zero {w : Word} (h : rsvField w ≠ 0) :
    decode w = .error (.reservedField (rsvField w)) := if_pos h

theorem decode_of_rsvField_eq_zero {w : Word} (h : rsvField w = 0) :
    decode w = (commandOfOpcode (opField w).toNat).elim (.error (.reservedOpcode (opField w))) .ok := by
  rw [decode, if_neg (not_not_intro h)]
  cases commandOfOpcode (opField w).toNat <;> rfl

theorem decode_eq_ok_iff (w : Word) (i : Instr) :
    decode w = .ok i ↔ rsvField w = 0 ∧ commandOfOpcode (opField w).toNat = some i := by
  by_cases hrsv : rsvField w = 0
  · rw [decode_of_rsvField_eq_zero hrsv]
    cases commandOfOpcode (opField w).toNat <;> simp [hrsv]
  · simp only [decode_of_rsvField_ne_zero hrsv, hrsv, reduceCtorEq, false_and]

theorem decode_eq_error_iff (w : Word) :
    (∃ r, decode w = .error r) ↔ rsvField w ≠ 0 ∨ commandOfOpcode (opField w).toNat = none := by
  by_cases hrsv : rsvField w = 0
  · rw [decode_of_rsvField_eq_zero hrsv]
    cases commandOfOpcode (opField w).toNat <;> simp [hrsv]
  · exact iff_of_true ⟨_, decode_of_rsvField_ne_zero hrsv⟩ (.inl hrsv)

theorem decode_eq_ok_iff_eq_encode (w : Word) (i : Instr) : decode w = .ok i ↔ w = encode i := by
  rw [decode_eq_ok_iff, commandOfOpcode_eq_some_iff, eq_encode_iff]

/-- Settles O1: the fields of a command's word are a zero RSV field and its opcode, which the map reads
back. -/
theorem encodedCommandDecodesToItself : Obligations.EncodedCommandDecodesToItself := fun i =>
  (decode_eq_ok_iff_eq_encode (encode i) i).mpr rfl

/-- Settles O2: both halves are read off the fields of the word. -/
theorem onlyTheFourteenWordsAreCommands : Obligations.OnlyTheFourteenWordsAreCommands := by
  intro w
  refine ⟨decode_eq_ok_iff_eq_encode w, ?_⟩
  rw [decode_eq_error_iff, Ne, rsvField_eq_zero_iff, commandOfOpcode_eq_none_iff, opField_toNat]

/-- Settles O3: the fourteen words are those of the commands, and three words that `decode` refuses
are evaluated. -/
theorem opcodeMapWordsDecode : Obligations.OpcodeMapWordsDecode := by
  have hword := encodedCommandDecodesToItself
  refine ⟨⟨hword .nop, hword .rank, hword .build, hword .derive, hword .pack, hword .ser,
    hword .deser, hword .tobytes, hword .frombytes, hword .walk, hword .encode, hword .decode,
    hword .clear, hword .sreset⟩, ?_⟩
  decide

end Sys2Proof
end

section
/-! SUPPORT. The rank order (40_frequency_ranker.md R121, R122): the order of R121 is a strict order that
compares any two symbols, so a sequence of symbols has one arrangement in it, and `rankOrder` finds it. -/
namespace Sys2Proof.Machine

/-! ## The order of R121 -/

theorem rankBefore_iff (buf : Bytes) (a b : Byte) : rankBefore buf a b = true ↔ RanksBefore buf a b := by
  rw [rankBefore, RanksBefore, Bool.or_eq_true, Bool.and_eq_true, beq_iff_eq, decide_eq_true_iff,
    decide_eq_true_iff, occurrences, occurrences]

theorem RanksBefore.irrefl (buf : Bytes) (a : Byte) : ¬ RanksBefore buf a a := by
  unfold RanksBefore
  omega

theorem RanksBefore.trans {buf : Bytes} {a b c : Byte} (hab : RanksBefore buf a b)
    (hbc : RanksBefore buf b c) : RanksBefore buf a c := by
  unfold RanksBefore at *
  omega

theorem RanksBefore.total {buf : Bytes} {a b : Byte} (hne : a ≠ b) :
    RanksBefore buf a b ∨ RanksBefore buf b a := by
  have hval : a.toNat ≠ b.toNat := fun h => hne (BitVec.eq_of_toNat_eq h)
  unfold RanksBefore
  omega

theorem RanksBefore.ne {buf : Bytes} {a b : Byte} (hab : RanksBefore buf a b) : a ≠ b := by
  rintro rfl
  exact RanksBefore.irrefl buf a hab

theorem IsRankOrder.mem_iff {buf r : Bytes} (h : IsRankOrder buf r) (sym : Byte) :
    sym ∈ r ↔ sym ∈ buf := h.1 sym

theorem IsRankOrder.nodup {buf r : Bytes} (h : IsRankOrder buf r) : r.Nodup := h.2.imp RanksBefore.ne

/-- R122: a buffer has one rank order. -/
theorem IsRankOrder.unique {buf r r' : Bytes} (h : IsRankOrder buf r) (h' : IsRankOrder buf r') :
    r = r' := by
  have hperm : r.Perm r' :=
    (List.perm_ext_iff_of_nodup h.nodup h'.nodup).mpr fun sym =>
      (h.mem_iff sym).trans (h'.mem_iff sym).symm
  exact hperm.eq_of_pairwise
    (fun a _ _ _ hab hba => absurd (hab.trans hba) (RanksBefore.irrefl buf a)) h.2 h'.2

/-! ## The sort -/

theorem rankInsert_perm (buf : Bytes) (sym : Byte) (r : Bytes) :
    (rankInsert buf sym r).Perm (sym :: r) := by
  induction r with
  | nil => exact .refl _
  | cons t rest ih =>
    unfold rankInsert
    split
    · exact .refl _
    · exact (ih.cons t).trans (.swap sym t rest)

theorem rankSort_perm (buf r : Bytes) : (rankSort buf r).Perm r := by
  induction r with
  | nil => exact .refl _
  | cons sym rest ih => exact (rankInsert_perm buf sym _).trans (ih.cons sym)

theorem rankInsert_ranked {buf : Bytes} {sym : Byte} {r : Bytes} (hsym : sym ∉ r)
    (hr : r.Pairwise (RanksBefore buf)) : (rankInsert buf sym r).Pairwise (RanksBefore buf) := by
  induction r with
  | nil => exact List.pairwise_singleton _ _
  | cons t rest ih =>
    rw [List.mem_cons, not_or] at hsym
    obtain ⟨hne, hsym⟩ := hsym
    obtain ⟨ht, hrest⟩ := List.pairwise_cons.mp hr
    unfold rankInsert
    split
    next hbefore =>
      have hst : RanksBefore buf sym t := (rankBefore_iff buf sym t).mp hbefore
      refine List.pairwise_cons.mpr ⟨fun u hu => ?_, hr⟩
      obtain rfl | hu := List.mem_cons.mp hu
      · exact hst
      · exact hst.trans (ht u hu)
    next hafter =>
      have hts : RanksBefore buf t sym :=
        (RanksBefore.total hne).resolve_left (mt (rankBefore_iff buf sym t).mpr hafter)
      refine List.pairwise_cons.mpr ⟨fun u hu => ?_, ih hsym hrest⟩
      obtain rfl | hu := List.mem_cons.mp ((rankInsert_perm buf sym rest).mem_iff.mp hu)
      · exact hts
      · exact ht u hu

theorem rankSort_ranked (buf : Bytes) {r : Bytes} (hr : r.Nodup) :
    (rankSort buf r).Pairwise (RanksBefore buf) := by
  induction r with
  | nil => exact .nil
  | cons sym rest ih =>
    obtain ⟨hsym, hrest⟩ := List.nodup_cons.mp hr
    exact rankInsert_ranked (mt (rankSort_perm buf rest).mem_iff.mp hsym) (ih hrest)

/-! ## `rank_order` -/

theorem mem_symbols (sym : Byte) : sym ∈ symbols :=
  List.mem_map.mpr ⟨sym.toNat, List.mem_range.mpr sym.isLt, BitVec.ofNat_toNat 8 sym⟩

theorem symbols_nodup : symbols.Nodup := by
  refine List.Nodup.map_on (fun a ha b hb hab => ?_) List.nodup_range
  have hval := congrArg BitVec.toNat hab
  rw [List.mem_range] at ha hb
  simp only [BitVec.toNat_ofNat] at hval
  omega

theorem isRankOrder_of_rankOrder {buf r : Bytes} (h : rankOrder buf = .ok r) : IsRankOrder buf r := by
  unfold rankOrder at h
  split at h
  · cases h
  · cases h
    refine ⟨fun sym => ?_, rankSort_ranked buf (symbols_nodup.filter _)⟩
    rw [(rankSort_perm buf _).mem_iff, List.mem_filter]
    simp [mem_symbols, occurrences, List.count_pos_iff]

theorem rankOrder_of_ne_nil {buf : Bytes} (h : buf ≠ []) : ∃ r, rankOrder buf = .ok r :=
  ⟨_, if_neg (by simpa using h)⟩

theorem IsRankOrder.rankOrder_eq {buf r : Bytes} (h : IsRankOrder buf r) (hne : buf ≠ []) :
    rankOrder buf = .ok r := by
  obtain ⟨r', hr'⟩ := rankOrder_of_ne_nil hne
  rw [hr', h.unique (isRankOrder_of_rankOrder hr')]

end Sys2Proof.Machine
end

section
/-! SUPPORT. The functions that the encode data flow is made of (47_composite.md R212), each with what it
gives on a chain of distinct leaves: the tree (R131), its table (R142), the coded bits (R102, R154) and the
packed bytes (R150). -/
namespace Sys2Proof.Machine

/-! ## Trees -/

theorem leaves_chainTree (s0 s1 : Byte) (rest : Bytes) :
    leaves (chainTree s0 s1 rest) = s0 :: s1 :: rest := by
  induction rest generalizing s0 s1 with
  | nil => rfl
  | cons s2 rest ih => rw [chainTree, leaves, ih]

theorem buildTree_of_two_le {r : Bytes} (h : 2 ≤ r.length) : ∃ t, buildTree r = .ok t ∧ leaves t = r := by
  match r with
  | s0 :: s1 :: rest => exact ⟨_, rfl, leaves_chainTree s0 s1 rest⟩

theorem buildTree_of_lt_two {r : Bytes} (h : r.length < 2) :
    buildTree r = .error ⟨.insufficientSymbols, BitVec.ofNat 32 r.length⟩ := by
  match r with
  | [] | [_] => rfl

theorem two_le_leaves_length (t : CodeTree) : 2 ≤ (leaves t).length := by
  fun_induction leaves t with
  | case1 left sym => simp
  | case2 left sub ih => simp; omega

/-! ## The table of a tree -/

/-- The table entries of the leaves from level `k` on, of a chain that ends with them (R100). -/
def chainEntriesFrom (k : Nat) (leafSyms : Bytes) : CodeTable :=
  (leafSyms.zipIdx k).map (fun e => (e.1, chainCode (k + leafSyms.length) e.2))

theorem chainEntriesFrom_zero (r : Bytes) : chainEntriesFrom 0 r = chainEntries r := by
  simp [chainEntriesFrom, chainEntries]

theorem chainEntriesFrom_cons (k : Nat) (sym : Byte) {rest : Bytes} (h : 1 ≤ rest.length) :
    chainEntriesFrom k (sym :: rest) =
      (sym, List.replicate k true ++ [false]) :: chainEntriesFrom (k + 1) rest := by
  have hk : k + 1 < k + (rest.length + 1) := by omega
  simp [chainEntriesFrom, chainCode, hk, Nat.add_assoc, Nat.add_comm 1]

theorem chainEntriesFrom_singleton (k : Nat) (sym : Byte) :
    chainEntriesFrom (k + 1) [sym] = [(sym, List.replicate (k + 1) true)] := by
  simp [chainEntriesFrom, chainCode]

/-- Assigning the first of some distinct symbols that a table lacks (R141): the others are still lacking. -/
theorem assign_of_nodup {t : CodeTable} {sym : Byte} {rest : Bytes}
    (h : (t.map Prod.fst ++ sym :: rest).Nodup) (w : Bits) :
    t.assign sym w = .ok (t ++ [(sym, w)]) ∧ ((t ++ [(sym, w)]).map Prod.fst ++ rest).Nodup := by
  obtain ⟨hnew, -⟩ := List.nodup_cons.mp (List.nodup_middle.mp h)
  have hnone : t.codeOf sym = none := by
    refine List.lookup_eq_none_iff.mpr fun e he => ?_
    have hne : sym ≠ e.1 := fun heq => hnew (heq ▸ List.mem_append_left _ (List.mem_map_of_mem he))
    simpa using hne
  exact ⟨by rw [CodeTable.assign, hnone], by simpa using h⟩

/-- The loop of R141 from level `k` on, with `k` ones accumulated, appends the entries of the leaves
from there on. -/
theorem deriveFrom_eq (tree : CodeTree) (t : CodeTable) (k : Nat)
    (h : (t.map Prod.fst ++ leaves tree).Nodup) :
    deriveFrom t (List.replicate k true) tree = .ok (t ++ chainEntriesFrom k (leaves tree)) := by
  fun_induction leaves tree generalizing t k with
  | case1 left sym =>
    obtain ⟨hleft, hrest⟩ := assign_of_nodup h (List.replicate k true ++ [false])
    obtain ⟨hright, -⟩ := assign_of_nodup hrest (List.replicate (k + 1) true)
    rw [chainEntriesFrom_cons k left (by simp), chainEntriesFrom_singleton, List.append_cons]
    simp only [deriveFrom, hleft, ← List.replicate_succ', hright]
  | case2 left sub ih =>
    obtain ⟨hleft, hrest⟩ := assign_of_nodup h (List.replicate k true ++ [false])
    have hsub : 1 ≤ (leaves sub).length := Nat.one_le_of_lt (two_le_leaves_length sub)
    rw [chainEntriesFrom_cons k left hsub, List.append_cons, ← ih _ (k + 1) hrest]
    simp only [deriveFrom, hleft, ← List.replicate_succ']

theorem deriveTable_eq {tree : CodeTree} (h : (leaves tree).Nodup) :
    deriveTable tree = .ok (chainEntries (leaves tree)) := by
  have hfrom := deriveFrom_eq tree [] 0 h
  rwa [chainEntriesFrom_zero] at hfrom

/-! ## The coded bits -/

theorem lookup_chainEntries_of_mem {r : Bytes} {sym : Byte} (h : sym ∈ r) :
    ∃ w, (chainEntries r).lookup sym = some w := by
  rw [← Option.isSome_iff_exists, List.lookup_isSome_iff]
  rw [← map_fst_chainEntries r] at h
  obtain ⟨e, he, rfl⟩ := List.mem_map.mp h
  exact ⟨e, he, beq_self_eq_true _⟩

theorem codeword_length_bounds {r : Bytes} {sym : Byte} {w : Bits} (hr : 2 ≤ r.length)
    (h : (chainEntries r).lookup sym = some w) : 1 ≤ w.length ∧ w.length ≤ r.length - 1 := by
  obtain ⟨before, after, hmem, -⟩ := List.lookup_eq_some_iff.mp h
  have hentry : (sym, w) ∈ chainEntries r := by simp [hmem]
  obtain ⟨e, -, he⟩ := List.mem_map.mp hentry
  cases he
  exact chainCode_length r.length e.2 hr

theorem codeBitsFrom_eq {table : Byte → Option Bits} {buf : Bytes}
    (h : ∀ b ∈ buf, ∃ w, table b = some w) (i : Nat) :
    codeBitsFrom table i buf = .ok (buf.flatMap fun b => (table b).getD []) := by
  induction buf generalizing i with
  | nil => rfl
  | cons b rest ih =>
    obtain ⟨⟨w, hw⟩, hrest⟩ := List.forall_mem_cons.mp h
    simp [codeBitsFrom, hw, ih hrest]

/-- R154: every byte of the buffer being a leaf, the coded bits are those of R102. -/
theorem codeBits_chainEntries {r buf : Bytes} (h : ∀ b ∈ buf, b ∈ r) :
    codeBits (CodeTable.codeOf (chainEntries r)) buf = .ok (codedBits r buf) :=
  codeBitsFrom_eq (fun b hb => lookup_chainEntries_of_mem (h b hb)) 0

/-- R106: each byte takes at least one bit and at most as many as the chain has levels. -/
theorem codedBits_length_bounds {r buf : Bytes} (hr : 2 ≤ r.length) (h : ∀ b ∈ buf, b ∈ r) :
    buf.length ≤ (codedBits r buf).length ∧ (codedBits r buf).length ≤ (r.length - 1) * buf.length := by
  induction buf with
  | nil => simp [codedBits]
  | cons b rest ih =>
    obtain ⟨hb, hrest⟩ := List.forall_mem_cons.mp h
    obtain ⟨w, hw⟩ := lookup_chainEntries_of_mem hb
    obtain ⟨hmin, hmax⟩ := codeword_length_bounds hr hw
    obtain ⟨ihmin, ihmax⟩ := ih hrest
    have hlen : (codedBits r (b :: rest)).length = w.length + (codedBits r rest).length := by
      simp [codedBits, hw]
    rw [hlen, List.length_cons, Nat.mul_add_one]
    omega

/-! ## Packed bytes -/

theorem packBytes_length (bits : Bits) : (packBytes bits).length = bits.length / 8 := by
  fun_induction packBytes bits with
  | case1 b0 b1 b2 b3 b4 b5 b6 b7 rest ih => simp only [List.length_cons, ih]; omega
  | case2 bits hshort =>
    have hlt : bits.length < 8 := by
      refine Nat.lt_of_not_le fun hge => ?_
      match bits with
      | b0 :: b1 :: b2 :: b3 :: b4 :: b5 :: b6 :: b7 :: rest =>
        exact hshort b0 b1 b2 b3 b4 b5 b6 b7 rest rfl
    exact (Nat.div_eq_of_lt hlt).symm

/-- R150: the packed bytes are as many as the bits take. -/
theorem pack_length (bits : Bits) : (pack bits).1.length = (bits.length + 7) / 8 := by
  simp only [pack, packBytes_length, List.length_append, List.length_replicate, paddingOf]
  omega

/-! ## The container of a buffer -/

/-- The container that `encode` makes of a buffer with the rank order `r` (R104, R212). -/
def encodedContainer (r buf : Bytes) : Container where
  padding := BitVec.ofNat 8 (pack (codedBits r buf)).2
  serializedTree := BitVec.ofNat 8 r.length :: r
  packedData := (pack (codedBits r buf)).1

/-- R106: the padding, the count byte, the symbols and the packed bytes. -/
theorem toBytes_encodedContainer_length (r buf : Bytes) :
    (toBytes (encodedContainer r buf)).length =
      2 + r.length + ((codedBits r buf).length + 7) / 8 := by
  simp only [toBytes, encodedContainer, List.length_cons, List.length_append, pack_length]
  omega

/-! ### `encode` of R212, by the number of distinct byte values -/

theorem encodeBuffer_of_lt_two {buf r : Bytes} (h : IsRankOrder buf r) (hne : buf ≠ [])
    (hr : r.length < 2) :
    encodeBuffer buf = .error ⟨.insufficientSymbols, BitVec.ofNat 32 r.length⟩ := by
  simp only [encodeBuffer, bind, Except.bind, h.rankOrder_eq hne, buildTree_of_lt_two hr]

theorem encodeBuffer_of_two_le {buf r : Bytes} (h : IsRankOrder buf r) (hr : 2 ≤ r.length) :
    encodeBuffer buf =
      if 255 < r.length then .error ⟨.symbolCountOverflow, BitVec.ofNat 32 r.length⟩
      else .ok (toBytes (encodedContainer r buf)) := by
  have hne : buf ≠ [] := by
    rintro rfl
    have hmem := (h.mem_iff r[0]).mp (List.getElem_mem _)
    simp at hmem
  obtain ⟨t, ht, rfl⟩ := buildTree_of_two_le hr
  have hbits := codeBits_chainEntries fun b hb => (h.mem_iff b).mpr hb
  simp only [encodeBuffer, bind, Except.bind, h.rankOrder_eq hne, ht, deriveTable_eq h.nodup, hbits]
  rw [serializeTree]
  by_cases hmax : 255 < (leaves t).length
  · rw [if_pos hmax, if_pos hmax]
  · rw [if_neg hmax, if_neg hmax]
    rfl

/-- R212: `encode` succeeds only on 2 to 255 distinct byte values, with the container of R104. -/
theorem encodeBuffer_ok {buf r c : Bytes} (h : IsRankOrder buf r) (hc : encodeBuffer buf = .ok c) :
    2 ≤ r.length ∧ r.length ≤ 255 ∧ c = toBytes (encodedContainer r buf) := by
  have hne : buf ≠ [] := by
    rintro rfl
    cases hc
  have hmin : 2 ≤ r.length := by
    by_contra hlt
    rw [encodeBuffer_of_lt_two h hne (by omega)] at hc
    cases hc
  rw [encodeBuffer_of_two_le h hmin] at hc
  split at hc
  · cases hc
  · cases hc
    exact ⟨hmin, by omega, rfl⟩

/-- Settles O55: what `encode` answers is the container of R104, whose length is counted and whose coded
bits are bounded codeword by codeword. -/
theorem encodedSizesAreBounded : Obligations.EncodedSizesAreBounded := by
  intro buf r c hrank hc
  obtain ⟨hmin, -, rfl⟩ := encodeBuffer_ok hrank hc
  exact ⟨toBytes_encodedContainer_length r buf,
    codedBits_length_bounds hmin fun b hb => (hrank.mem_iff b).mpr hb⟩

end Sys2Proof.Machine
end

section
/-! SUPPORT. The ranker's two statements (40_frequency_ranker.md R121 to R123): how long a rank order is,
that it does not depend on the order of the bytes, and what the stage RANK leaves. -/
namespace Sys2Proof.Machine

/-! ## The rank order of a buffer (R121, R122) -/

theorem rankOrder_nil : rankOrder [] = .error ⟨.emptyInput, 0⟩ := rfl

/-- The symbols of a buffer are among its bytes, each once. -/
theorem IsRankOrder.length_le {buf r : Bytes} (h : IsRankOrder buf r) : r.length ≤ buf.length :=
  (h.nodup.subperm fun sym hsym => (h.mem_iff sym).mp hsym).length_le

theorem IsRankOrder.length_pos {buf r : Bytes} (h : IsRankOrder buf r) (hne : buf ≠ []) :
    1 ≤ r.length := by
  obtain ⟨sym, hsym⟩ := List.exists_mem_of_ne_nil buf hne
  exact List.length_pos_of_mem ((h.mem_iff sym).mpr hsym)

/-- The order of R121 looks at a buffer only through its counts. -/
theorem ranksBefore_congr {buf buf' : Bytes} (hperm : buf.Perm buf') (a b : Byte) :
    RanksBefore buf a b ↔ RanksBefore buf' a b := by
  rw [RanksBefore, RanksBefore, hperm.count_eq a, hperm.count_eq b]

theorem IsRankOrder.of_perm {buf buf' r : Bytes} (h : IsRankOrder buf r) (hperm : buf.Perm buf') :
    IsRankOrder buf' r :=
  ⟨fun sym => (h.mem_iff sym).trans hperm.mem_iff, h.2.imp (ranksBefore_congr hperm _ _).mp⟩

/-- R122: the ranker's answer does not depend on the order of the bytes. -/
theorem rankOrder_eq_of_perm {buf buf' : Bytes} (hperm : buf.Perm buf') :
    rankOrder buf' = rankOrder buf := by
  by_cases hnil : buf = []
  · subst hnil
    rw [hperm.nil_eq]
  · obtain ⟨r, hr⟩ := rankOrder_of_ne_nil hnil
    have hne' : buf' ≠ [] := fun hnil' => hnil (hnil' ▸ hperm).eq_nil
    rw [hr, ((isRankOrder_of_rankOrder hr).of_perm hperm).rankOrder_eq hne']

/-- Settles O28: the sort's answer is a rank order, of which there is one, and permuting the bytes
leaves it a rank order. -/
theorem rankOrderIsTheOneRankOrder : Obligations.RankOrderIsTheOneRankOrder := by
  intro buf
  refine ⟨?_, fun hne => ?_, fun buf' hperm => rankOrder_eq_of_perm hperm⟩
  · rintro rfl
    exact rankOrder_nil
  · obtain ⟨r, hr⟩ := rankOrder_of_ne_nil hne
    have hrank := isRankOrder_of_rankOrder hr
    exact ⟨r, hr, hrank, fun r' hr' => hr'.unique hrank, hrank.nodup, hrank.length_pos hne,
      hrank.length_le, rankOrder_length_le hr⟩

/-! ## The command RANK (R123) -/

theorem inputBytes_eq_nil_iff (s : State) : inputBytes s = [] ↔ s.ilen = 0 := by
  rw [← List.length_eq_zero_iff, inputBytes_length]
  exact BitVec.toNat_inj (y := 0)

/-- RANK with an empty input: the ranker's one error (R121). -/
theorem rankStage_of_ilen_eq_zero {s : State} (h : s.ilen = 0) :
    rankStage s = raise .emptyInput 0 (rankStart s) := by
  have hfail : rankOrder (inputBytes s) = .error ⟨.emptyInput, 0⟩ := by
    rw [(inputBytes_eq_nil_iff s).mpr h, rankOrder_nil]
  rcases rankStage_cases s with ⟨f, hf, hstage⟩ | ⟨r, hr, -⟩
  · cases hfail.symm.trans hf
    exact hstage
  · cases hfail.symm.trans hr

/-- RANK with an input: its rank order is loaded. -/
theorem rankStage_of_ilen_ne_zero {s : State} (h : s.ilen ≠ 0) :
    ∃ r, rankOrder (inputBytes s) = .ok r ∧
      rankStage s =
        succeed
          { rankStart s with
            rank := loadFile s.rank r, n := BitVec.ofNat 9 r.length, vRank := true } := by
  obtain ⟨r, hr⟩ := rankOrder_of_ne_nil (mt (inputBytes_eq_nil_iff s).mp h)
  refine (rankStage_cases s).resolve_left ?_
  rintro ⟨f, hf, -⟩
  cases hr.symm.trans hf

/-- However RANK ends, the tree and the table are invalid, and the input and the three buffers of the
other commands are as they were (R45, R79). -/
theorem rankStage_frame (s : State) :
    TreeInvalid (rankStage s).state ∧ (rankStage s).state.vCw = false ∧
      KeepsInput s (rankStage s).state ∧ KeepsTreeBytes s (rankStage s).state ∧
      KeepsPacked s (rankStage s).state ∧ KeepsOutput s (rankStage s).state := by
  have hinput := stage_keepsInput .rank s
  rcases rankStage_cases s with ⟨f, -, h⟩ | ⟨r, -, h⟩
  · rw [h] at hinput ⊢
    exact ⟨⟨rfl, rfl⟩, rfl, hinput, ⟨rfl, rfl⟩, ⟨rfl, rfl, rfl⟩, ⟨rfl, rfl⟩⟩
  · rw [h] at hinput ⊢
    exact ⟨⟨rfl, rfl⟩, rfl, hinput, ⟨rfl, rfl⟩, ⟨rfl, rfl, rfl⟩, ⟨rfl, rfl⟩⟩

theorem rankStage_error {s : State} (h : s.ilen = 0) :
    ReportsError 1 0 0x01 (rankStage s).state ∧ RankInvalid (rankStage s).state := by
  rw [rankStage_of_ilen_eq_zero h]
  exact ⟨⟨rfl, rfl, rfl, rfl, rfl⟩, rfl, rfl⟩

theorem rankStage_success {s : State} (h : s.ilen ≠ 0) :
    ReportsSuccess 0x01 (rankStage s).state ∧
      ∃ r, rankOrder (inputBytes s) = .ok r ∧ HoldsRank r (rankStage s).state := by
  obtain ⟨r, hr, hstage⟩ := rankStage_of_ilen_ne_zero h
  have hlen := rankOrder_length_le hr
  have hn : (BitVec.ofNat 9 r.length).toNat = r.length := by
    rw [BitVec.toNat_ofNat, Nat.mod_eq_of_lt (by omega)]
  rw [hstage]
  exact ⟨⟨rfl, rfl, rfl, rfl, rfl⟩, r, hr, rfl, hn, filePart_loadFile_ofNat s.rank r hlen⟩

/-- Settles O29: the report and the file in each case, over one frame for both. -/
theorem rankFollowsItsRule : Obligations.RankFollowsItsRule := by
  refine fun s => ⟨fun h => ?_, fun h => ?_⟩
  · obtain ⟨hreport, hinvalid⟩ := rankStage_error h
    exact ⟨_, rfl, hreport, hinvalid, rankStage_frame s⟩
  · obtain ⟨hreport, r, hr, hvalid, hn, hlist⟩ := rankStage_success h
    have hrank : IsRankOrder (inputBytes s) (rankList (rankStage s).state) :=
      hlist ▸ isRankOrder_of_rankOrder hr
    exact ⟨_, rfl, hreport, hrank, by rw [hn, hlist], hvalid, rankStage_frame s⟩

end Sys2Proof.Machine
end

section
/-! SUPPORT. The tree builder's two statements (41_tree_builder.md R130 to R133): the recursion by which
`buildTree` makes the chain and how many levels it has, and what the stage BUILD leaves. -/
namespace Sys2Proof.Machine

/-! ## The function (R130, R131) -/

/-- R21: each level adds one leaf, and the last one a second. -/
theorem levels_add_one (t : CodeTree) : levels t + 1 = (leaves t).length := by
  fun_induction leaves t with
  | case1 left sym => rfl
  | case2 left sub ih => rw [levels, List.length_cons, ih]

/-- The recursive equation of R131. -/
theorem buildTree_cons {a : Byte} {rest : Bytes} {t : CodeTree} (hlen : 2 ≤ rest.length)
    (ht : buildTree rest = .ok t) : buildTree (a :: rest) = .ok (.level a (.branch t)) := by
  match rest with
  | s1 :: s2 :: rest =>
    cases ht
    rfl

/-- Settles O30: the equations of `buildTree`, and the levels counted by the leaves. -/
theorem buildTreeMakesTheChain : Obligations.BuildTreeMakesTheChain := by
  refine ⟨fun r => buildTree_of_lt_two, fun a b => rfl, fun a rest t => buildTree_cons, fun r hr => ?_⟩
  obtain ⟨t, ht, hleaves⟩ := buildTree_of_two_le hr
  have hlevels : levels t + 1 = r.length := hleaves ▸ levels_add_one t
  exact ⟨t, ht, hleaves, by omega⟩

/-! ## The command BUILD (R133) -/

theorem buildStage_of_not_vRank {s : State} (h : s.vRank = false) :
    buildStage s = raise .notReady 0 (buildStart s) := if_pos h

/-- BUILD of a rank order of fewer than two symbols, with N as the host reads it in ERRINFO. -/
theorem buildStage_of_n_lt_two {s : State} (hv : s.vRank = true) (hn : s.n.toNat < 2) :
    buildStage s =
      raise .insufficientSymbols (BitVec.ofNat 32 s.n.toNat) (buildStart s) := by
  rw [buildStage, if_neg (by simp [hv]), if_pos hn, BitVec.ofNat_toNat]

theorem buildStage_of_two_le_n {s : State} (hv : s.vRank = true) (hn : 2 ≤ s.n.toNat) :
    buildStage s =
      succeed
        { buildStart s with tsym := loadFile s.tsym (rankList s), tn := s.n, vTree := true } := by
  rw [buildStage, if_neg (by simp [hv]), if_neg (by omega)]

/-- However BUILD ends, the table is invalid, and the rank order, the input and the three buffers of the
other commands are as they were (R45, R79). -/
theorem buildStage_frame (s : State) :
    (buildStage s).state.vCw = false ∧ KeepsRank s (buildStage s).state ∧
      KeepsInput s (buildStage s).state ∧ KeepsTreeBytes s (buildStage s).state ∧
      KeepsPacked s (buildStage s).state ∧ KeepsOutput s (buildStage s).state := by
  have hinput := stage_keepsInput .build s
  rcases buildStage_cases s with ⟨-, h⟩ | ⟨-, -, h⟩ | ⟨-, -, h⟩ <;> rw [h] at hinput ⊢ <;>
    exact ⟨rfl, ⟨rfl, rfl, rfl⟩, hinput, ⟨rfl, rfl⟩, ⟨rfl, rfl, rfl⟩, ⟨rfl, rfl⟩⟩

theorem reportsError_raise_buildStart (e : ErrorKind) (info : Word) (s : State) :
    ReportsError e.code info 0x02 (raise e info (buildStart s)).state ∧
      TreeInvalid (raise e info (buildStart s)).state :=
  ⟨⟨rfl, rfl, rfl, rfl, rfl⟩, rfl, rfl⟩

/-- BUILD's success: TSYM holds the rank order as the chain's leaves (R30). -/
theorem buildStage_success {s : State} (hv : s.vRank = true) (hn : 2 ≤ s.n.toNat) :
    ReportsSuccess 0x02 (buildStage s).state ∧ leafList (buildStage s).state = rankList s ∧
      (buildStage s).state.tn = s.n ∧ (buildStage s).state.vTree = true := by
  rw [buildStage_of_two_le_n hv hn]
  exact ⟨⟨rfl, rfl, rfl, rfl, rfl⟩, filePart_loadFile_filePart s.tsym s.rank s.n.toNat, rfl, rfl⟩

/-- Settles O31: the report and the tree in each case, over one frame for all three. -/
theorem buildFollowsItsRule : Obligations.BuildFollowsItsRule := by
  refine fun s => ⟨fun hv => ?_, fun hv hn => ?_, fun hv hn => ?_⟩
  · obtain ⟨hreport, hinvalid⟩ := reportsError_raise_buildStart .notReady 0 s
    rw [← buildStage_of_not_vRank hv] at hreport hinvalid
    exact ⟨_, rfl, hreport, hinvalid, buildStage_frame s⟩
  · obtain ⟨hreport, hinvalid⟩ :=
      reportsError_raise_buildStart .insufficientSymbols (BitVec.ofNat 32 s.n.toNat) s
    rw [← buildStage_of_n_lt_two hv hn] at hreport hinvalid
    exact ⟨_, rfl, hreport, hinvalid, buildStage_frame s⟩
  · obtain ⟨hreport, hleaves, htn, htree⟩ := buildStage_success hv hn
    exact ⟨_, rfl, hreport, hleaves, htn, htree, buildStage_frame s⟩

end Sys2Proof.Machine
end

section
/-! SUPPORT. The table deriver's four statements (42_table_deriver.md R140 to R145): that no
codeword of the chain begins another, on which trees `deriveTable` fails, and what the stage DERIVE leaves. -/
namespace Sys2Proof.Machine

/-! ## The codewords of a chain (R100, R142, R143) -/

theorem isChainCode_chainCode (count i : Nat) : IsChainCode count i (chainCode count i) :=
  ⟨fun h => if_pos (by omega), fun h => if_neg (by omega)⟩

/-- The one 0 of a codeword stands at the place of its leaf, and the last leaf's has none. -/
theorem chainCode_getElem?_eq_false_iff (count i k : Nat) :
    (chainCode count i)[k]? = some false ↔ k = i ∧ i + 1 < count := by
  unfold chainCode
  split
  · rw [List.getElem?_append, List.getElem?_replicate, List.length_replicate]
    by_cases hk : k < i
    · simp [hk, Nat.ne_of_lt hk]
    · simp [hk, List.getElem?_singleton]
      omega
  · simp [List.getElem?_replicate]
    omega

/-- A codeword reaches the place of its leaf and every earlier one, the last place excepted. -/
theorem lt_chainCode_length {count i k : Nat} (hki : k ≤ i) (hk : k + 1 < count) :
    k < (chainCode count i).length := by
  unfold chainCode
  split
  · simp; omega
  · simp; omega

/-- R143: at the place of the earlier of two leaves one codeword has its 0 and the other has a 1. -/
theorem chainCode_not_prefix {count i j : Nat} (hi : i < count) (hj : j < count) (hne : i ≠ j) :
    ¬ chainCode count i <+: chainCode count j := by
  intro hprefix
  have hsame : ∀ k, k < (chainCode count i).length →
      (chainCode count j)[k]? = (chainCode count i)[k]? := fun k hk =>
    (List.prefix_iff_getElem?.mp hprefix k hk).trans (List.getElem?_eq_getElem hk).symm
  rcases Nat.lt_or_gt_of_ne hne with hlt | hlt
  · have heq := hsame i (lt_chainCode_length le_rfl (by omega))
    rw [(chainCode_getElem?_eq_false_iff count i i).mpr ⟨rfl, by omega⟩,
      chainCode_getElem?_eq_false_iff] at heq
    exact hne heq.1
  · have heq := hsame j (lt_chainCode_length hlt.le (by omega))
    rw [(chainCode_getElem?_eq_false_iff count j j).mpr ⟨rfl, by omega⟩, eq_comm,
      chainCode_getElem?_eq_false_iff] at heq
    exact hne heq.1.symm

/-! ## Tables, symbol by symbol (R22) -/

theorem codeOf_eq_none_iff (t : CodeTable) (sym : Byte) :
    t.codeOf sym = none ↔ sym ∉ t.map Prod.fst := by
  simp only [CodeTable.codeOf, List.lookup_eq_none_iff, bne_iff_ne, List.mem_map, not_exists, not_and]
  exact forall₂_congr fun e _ => ne_comm

theorem codeOf_eq_some_iff {t : CodeTable} (hkeys : (t.map Prod.fst).Nodup) (sym : Byte) (w : Bits) :
    t.codeOf sym = some w ↔ (sym, w) ∈ t := by
  rw [CodeTable.codeOf, List.lookup_eq_some_iff]
  constructor
  · rintro ⟨before, after, rfl, -⟩
    simp
  · intro hmem
    obtain ⟨before, after, rfl⟩ := List.append_of_mem hmem
    rw [List.map_append, List.map_cons] at hkeys
    have hnew : sym ∉ before.map Prod.fst := fun h =>
      List.disjoint_of_nodup_append hkeys h List.mem_cons_self
    exact ⟨before, after, rfl, List.lookup_eq_none_iff.mp ((codeOf_eq_none_iff before sym).mpr hnew)⟩

/-- R142: the codewords of a chain's table are those of its leaves' places. -/
theorem codeOf_chainEntries_eq_some_iff {r : Bytes} (h : r.Nodup) (sym : Byte) (w : Bits) :
    CodeTable.codeOf (chainEntries r) sym = some w ↔
      ∃ i, r[i]? = some sym ∧ w = chainCode r.length i := by
  rw [codeOf_eq_some_iff (by rwa [map_fst_chainEntries])]
  simp [chainEntries, List.mem_zipIdx_iff_getElem?, eq_comm]

/-- R142: a symbol that is no leaf is absent. -/
theorem codeOf_chainEntries_of_not_mem {r : Bytes} {sym : Byte} (h : sym ∉ r) :
    CodeTable.codeOf (chainEntries r) sym = none := by
  rwa [codeOf_eq_none_iff, map_fst_chainEntries]

/-- The closed form of R142, in the words of the spec. -/
theorem codeOf_chainEntries_isChainCode {r : Bytes} (h : r.Nodup) {i : Nat} {sym : Byte}
    (hi : r[i]? = some sym) :
    ∃ w, IsChainCode r.length i w ∧ CodeTable.codeOf (chainEntries r) sym = some w :=
  ⟨_, isChainCode_chainCode r.length i, (codeOf_chainEntries_eq_some_iff h sym _).mpr ⟨i, hi, rfl⟩⟩

/-! ## The duplicate check (R144, R145) -/

theorem firstRepeat_cons (seen : Bytes) (sym : Byte) (rest : Bytes) :
    firstRepeat seen (sym :: rest) = if sym ∈ seen then some sym else firstRepeat (sym :: seen) rest := by
  simp [firstRepeat]

/-- Symbols that repeat none are passed over, and count as seen from then on. -/
theorem firstRepeat_append {seen before : Bytes} (h : firstRepeat seen before = none) (rest : Bytes) :
    firstRepeat seen (before ++ rest) = firstRepeat (before.reverse ++ seen) rest := by
  induction before generalizing seen with
  | nil => rfl
  | cons sym before ih =>
    rw [firstRepeat_cons] at h
    split at h
    · cases h
    · next hnew =>
      rw [List.cons_append, firstRepeat_cons, if_neg hnew, ih h, List.reverse_cons, List.append_assoc,
        List.singleton_append]

/-- R144: the check finds the entry that, first in order, repeats an earlier one. -/
theorem firstRepeat_of_first {r : Bytes} {j : Nat} {sym : Byte} (hj : r[j]? = some sym)
    (hrepeat : ∃ i, i < j ∧ r[i]? = some sym)
    (hfirst : ∀ k, k < j → ∀ i, i < k → r[i]? ≠ r[k]?) : firstRepeat [] r = some sym := by
  obtain ⟨hlen, hsym⟩ := List.getElem?_eq_some_iff.mp hj
  have hnodup : (r.take j).Nodup := by
    refine List.nodup_iff_getElem?_ne_getElem?.mpr fun i k hik hk => ?_
    have hkj : k < j := by rw [List.length_take] at hk; omega
    simpa [List.getElem?_take, hkj, hik.trans hkj] using hfirst k hkj i hik
  have hmem : sym ∈ (r.take j).reverse ++ [] := by
    obtain ⟨i, hij, hi⟩ := hrepeat
    simpa using List.mem_of_getElem? (i := i) (by rwa [List.getElem?_take, if_pos hij])
  have hsplit : r = r.take j ++ sym :: r.drop (j + 1) := by
    rw [← hsym, List.getElem_cons_drop, List.take_append_drop]
  rw [hsplit, firstRepeat_append ((firstRepeat_nil_eq_none_iff _).mpr hnodup), firstRepeat_cons,
    if_pos hmem]

/-! ## The trees on which `derive_table` fails (R141, R145) -/

theorem assign_of_mem {t : CodeTable} {sym : Byte} (h : sym ∈ t.map Prod.fst) (w : Bits) :
    t.assign sym w = .error ⟨.duplicateSymbol, sym.setWidth 32⟩ := by
  rw [CodeTable.assign]
  cases hcode : t.codeOf sym with
  | none => exact absurd h ((codeOf_eq_none_iff t sym).mp hcode)
  | some v => rfl

theorem assign_of_not_mem {t : CodeTable} {sym : Byte} (h : sym ∉ t.map Prod.fst) (w : Bits) :
    t.assign sym w = .ok (t ++ [(sym, w)]) := by
  rw [CodeTable.assign, (codeOf_eq_none_iff t sym).mpr h]

/-- One assignment of R141 makes the duplicate check's next test: it fails, or the rest is left to check. -/
theorem assign_of_firstRepeat {t : CodeTable} {left sym : Byte} {rest : Bytes}
    (h : firstRepeat (t.map Prod.fst).reverse (left :: rest) = some sym) (w : Bits) :
    t.assign left w = .error ⟨.duplicateSymbol, sym.setWidth 32⟩ ∨
    (t.assign left w = .ok (t ++ [(left, w)]) ∧
      firstRepeat ((t ++ [(left, w)]).map Prod.fst).reverse rest = some sym) := by
  simp only [firstRepeat_cons, List.mem_reverse] at h
  split at h
  · next hmem =>
    cases h
    exact .inl (assign_of_mem hmem w)
  · next hnew => exact .inr ⟨assign_of_not_mem hnew w, by simpa using h⟩

/-- The loop of R141 fails where DERIVE's check does: at the first leaf that is seen already, in the
table or at an earlier level. -/
theorem deriveFrom_of_firstRepeat {tree : CodeTree} {t : CodeTable} {sym : Byte}
    (h : firstRepeat (t.map Prod.fst).reverse (leaves tree) = some sym) (acc : Bits) :
    deriveFrom t acc tree = .error ⟨.duplicateSymbol, sym.setWidth 32⟩ := by
  fun_induction leaves tree generalizing t acc with
  | case1 left right =>
    rcases assign_of_firstRepeat h (acc ++ [false]) with hleft | ⟨hleft, hrest⟩
    · simp only [deriveFrom, hleft]
    · rcases assign_of_firstRepeat hrest (acc ++ [true]) with hright | ⟨-, hend⟩
      · simp only [deriveFrom, hleft, hright]
      · cases hend
  | case2 left sub ih =>
    rcases assign_of_firstRepeat h (acc ++ [false]) with hleft | ⟨hleft, hrest⟩
    · simp only [deriveFrom, hleft]
    · simp only [deriveFrom, hleft, ih hrest]

/-- `derive_table` fails on the first repeated leaf; of distinct leaves it makes the chain's table. -/
theorem deriveTable_cases (tree : CodeTree) :
    (∃ sym, firstRepeat [] (leaves tree) = some sym ∧
      deriveTable tree = .error ⟨.duplicateSymbol, sym.setWidth 32⟩) ∨
    (firstRepeat [] (leaves tree) = none ∧ (leaves tree).Nodup ∧
      deriveTable tree = .ok (chainEntries (leaves tree))) := by
  cases h : firstRepeat [] (leaves tree) with
  | some sym => exact .inl ⟨sym, rfl, deriveFrom_of_firstRepeat (t := []) h []⟩
  | none =>
    have hnodup := (firstRepeat_nil_eq_none_iff _).mp h
    exact .inr ⟨rfl, hnodup, deriveTable_eq hnodup⟩

theorem deriveTable_ok {tree : CodeTree} {table : CodeTable} (h : deriveTable tree = .ok table) :
    (leaves tree).Nodup ∧ table = chainEntries (leaves tree) := by
  rcases deriveTable_cases tree with ⟨sym, -, herror⟩ | ⟨-, hnodup, hok⟩
  · cases herror.symm.trans h
  · cases hok.symm.trans h
    exact ⟨hnodup, rfl⟩

theorem leaves_of_buildTree {r : Bytes} {t : CodeTree} (h : buildTree r = .ok t) : leaves t = r := by
  match r with
  | s0 :: s1 :: rest =>
    cases h
    exact leaves_chainTree s0 s1 rest

/-- Settles O32: the table of distinct leaves is the chain's, whose codewords are those of R100. -/
theorem deriveTableHasTheClosedForm : Obligations.DeriveTableHasTheClosedForm := by
  intro r t hnodup ht
  obtain rfl := leaves_of_buildTree ht
  exact ⟨_, deriveTable_eq hnodup, fun i sym => codeOf_chainEntries_isChainCode hnodup,
    fun sym => codeOf_chainEntries_of_not_mem⟩

/-- Settles O33: a table that is made at all is a chain's, and different symbols have different places. -/
theorem derivedCodewordsArePrefixFree : Obligations.DerivedCodewordsArePrefixFree := by
  intro t table htable a b wa wb ha hb
  obtain ⟨hnodup, rfl⟩ := deriveTable_ok htable
  obtain ⟨hmin, hmax⟩ := codeword_length_bounds (two_le_leaves_length t) ha
  refine ⟨hmin, hmax, fun hab => ?_⟩
  obtain ⟨i, hi, rfl⟩ := (codeOf_chainEntries_eq_some_iff hnodup a wa).mp ha
  obtain ⟨j, hj, rfl⟩ := (codeOf_chainEntries_eq_some_iff hnodup b wb).mp hb
  refine chainCode_not_prefix (List.getElem?_eq_some_iff.mp hi).1 (List.getElem?_eq_some_iff.mp hj).1 ?_
  rintro rfl
  exact hab (Option.some.inj (hi.symm.trans hj))

/-! ## The command DERIVE (R144) -/

theorem codeword_eq_none_iff (s : State) (sym : Byte) :
    codeword s sym = none ↔ fileAt s.cwlen sym = 0 := by
  simp [codeword]

/-- R31: CWLEN is the length of the codeword. -/
theorem cwlen_of_codeword {s : State} {sym : Byte} {w : Bits} (h : codeword s sym = some w) :
    (fileAt s.cwlen sym).toNat = w.length := by
  unfold codeword at h
  split at h
  · cases h
  · cases h
    simp

theorem deriveStage_of_not_vTree {s : State} (h : s.vTree = false) :
    deriveStage s = raise .notReady 0 (deriveStart s) := if_pos h

theorem deriveStage_of_repeat {s : State} {sym : Byte} (hv : s.vTree = true)
    (h : firstRepeat [] (leafList s) = some sym) :
    deriveStage s = raise .duplicateSymbol (sym.setWidth 32) (deriveStart s) := by
  rw [deriveStage, if_neg (by simp [hv]), h]

theorem deriveStage_of_nodup {s : State} (hv : s.vTree = true) (h : (leafList s).Nodup) :
    deriveStage s =
      succeed
        { deriveStart s with
          cwlen := derivedLengths (chainEntries (leafList s))
          cwbits := derivedBits s.cwbits (chainEntries (leafList s))
          vCw := true } := by
  rw [deriveStage, if_neg (by simp [hv]), (firstRepeat_nil_eq_none_iff _).mpr h]

/-- However DERIVE ends, everything but the table and the report is as it was (R144, R79). -/
theorem deriveStage_frame (s : State) :
    KeepsRank s (deriveStage s).state ∧ KeepsTree s (deriveStage s).state ∧
      KeepsInput s (deriveStage s).state ∧ KeepsTreeBytes s (deriveStage s).state ∧
      KeepsPacked s (deriveStage s).state ∧ KeepsOutput s (deriveStage s).state := by
  have hinput := stage_keepsInput .derive s
  rcases deriveStage_cases s with ⟨-, h⟩ | ⟨-, _, -, h⟩ | ⟨-, -, h⟩ <;> rw [h] at hinput ⊢ <;>
    exact ⟨⟨rfl, rfl, rfl⟩, ⟨rfl, rfl, rfl⟩, hinput, ⟨rfl, rfl⟩, ⟨rfl, rfl, rfl⟩, ⟨rfl, rfl⟩⟩

theorem reportsError_raise_deriveStart (e : ErrorKind) (info : Word) (s : State) :
    ReportsError e.code info 0x03 (raise e info (deriveStart s)).state ∧
      (raise e info (deriveStart s)).state.vCw = false :=
  ⟨⟨rfl, rfl, rfl, rfl, rfl⟩, rfl⟩

/-- DERIVE's success: the files hold the chain code of the leaves (R31, R142). -/
theorem deriveStage_success {s : State} (hv : s.vTree = true) (hmin : 2 ≤ (leafList s).length)
    (hnodup : (leafList s).Nodup) :
    ReportsSuccess 0x03 (deriveStage s).state ∧ HoldsTable (leafList s) (deriveStage s).state := by
  have hmax : (leafList s).length ≤ 256 := leafList_length s ▸ Nat.min_le_right _ _
  rw [deriveStage_of_nodup hv hnodup]
  refine ⟨⟨rfl, rfl, rfl, rfl, rfl⟩, rfl, codeword_of_derived _ s.cwbits _ ?_ ?_ rfl rfl⟩
  · rwa [map_fst_chainEntries]
  · exact chainEntries_length_bounds _ hmin hmax

/-- Settles O34: the report and the table in each case, over one frame for all three. -/
theorem deriveFollowsItsRule : Obligations.DeriveFollowsItsRule := by
  refine fun s => ⟨fun hv => ?_, fun hv j sym hj hrepeat hfirst => ?_, fun hv htn hnodup => ?_⟩
  · obtain ⟨hreport, hinvalid⟩ := reportsError_raise_deriveStart .notReady 0 s
    rw [← deriveStage_of_not_vTree hv] at hreport hinvalid
    exact ⟨_, rfl, hreport, hinvalid, deriveStage_frame s⟩
  · obtain ⟨hreport, hinvalid⟩ :=
      reportsError_raise_deriveStart .duplicateSymbol (sym.setWidth 32) s
    rw [← deriveStage_of_repeat hv (firstRepeat_of_first hj hrepeat hfirst)] at hreport hinvalid
    rw [BitVec.ofNat_toNat]
    exact ⟨_, rfl, hreport, hinvalid, deriveStage_frame s⟩
  · have hmin : 2 ≤ (leafList s).length := by rw [leafList_length]; omega
    obtain ⟨hreport, hvalid, htable⟩ := deriveStage_success hv hmin hnodup
    refine ⟨_, rfl, hreport, hvalid, fun i sym hi => ?_, fun sym hsym => ?_, deriveStage_frame s⟩
    · obtain ⟨w, hw, hcode⟩ := codeOf_chainEntries_isChainCode hnodup hi
      have hword := (htable sym).trans hcode
      exact ⟨w, hw, hword, cwlen_of_codeword hword⟩
    · have hword := (htable sym).trans (codeOf_chainEntries_of_not_mem hsym)
      exact ⟨(codeword_eq_none_iff _ sym).mp hword, hword⟩

/-- Settles O35: stage and function make the same check, and the same table when it passes. -/
theorem deriveRefinesDeriveTable : Obligations.DeriveRefinesDeriveTable := by
  intro s t tree hv htree hexec
  obtain rfl : (deriveStage s).state = t := Host.Outcome.next.inj hexec
  have hleaves := leaves_of_buildTree htree
  have hmin : 2 ≤ (leafList s).length := hleaves ▸ two_le_leaves_length tree
  rcases deriveTable_cases tree with ⟨sym, hrepeat, hfails⟩ | ⟨-, hnodup, hok⟩
  · obtain ⟨⟨-, herr, hcode, hinfo, -⟩, hinvalid⟩ :=
      reportsError_raise_deriveStart .duplicateSymbol (sym.setWidth 32) s
    rw [← deriveStage_of_repeat hv (hleaves ▸ hrepeat)] at herr hcode hinfo hinvalid
    refine ⟨fun table htable => (nomatch hfails.symm.trans htable), fun f hf => ?_⟩
    cases hfails.symm.trans hf
    exact ⟨herr, hcode, hinfo, hinvalid⟩
  · rw [hleaves] at hnodup hok
    obtain ⟨⟨-, herr, -, -, -⟩, hvalid, htable⟩ := deriveStage_success hv hmin hnodup
    refine ⟨fun table ht => ?_, fun f hf => nomatch hok.symm.trans hf⟩
    cases hok.symm.trans ht
    exact ⟨herr, hvalid, htable⟩

end Sys2Proof.Machine
end

section
/-! SUPPORT. The bit packer's three statements (43_bit_packer.md R150 to R155): the bits in the packed
bytes one by one, that `unpack` reads them back, and what the stage PACK leaves. -/
namespace Sys2Proof.Machine

/-! ## Bits in packed bytes (R63, R150) -/

/-- The byte of eight bits, built up from its lowest bit, which is the last one (R63). -/
theorem packByte_eq_bit (b0 b1 b2 b3 b4 b5 b6 b7 : Bool) :
    packByte b0 b1 b2 b3 b4 b5 b6 b7 =
      BitVec.ofNat 8
        (.bit b7 (.bit b6 (.bit b5 (.bit b4 (.bit b3 (.bit b2 (.bit b1 (.bit b0 0)))))))) := by
  rw [packByte]
  congr 1
  simp only [Nat.bit_val]
  omega

/-- R63: the first of eight bits is bit 7 of their byte, the last one bit 0. -/
theorem packByte_getLsbD (b0 b1 b2 b3 b4 b5 b6 b7 : Bool) {k : Nat} (hk : k < 8) :
    (packByte b0 b1 b2 b3 b4 b5 b6 b7).getLsbD (7 - k) =
      [b0, b1, b2, b3, b4, b5, b6, b7].getD k false := by
  rw [packByte_eq_bit, BitVec.getLsbD_ofNat]
  interval_cases k <;> simp [Nat.testBit_bit_succ]

/-- R150: bit `7 - t mod 8` of byte `t div 8` is bit `t` of the sequence. -/
theorem packBytes_getLsbD (bits : Bits) {t : Nat} (ht : t < 8 * (packBytes bits).length) :
    ((packBytes bits).getD (t / 8) 0).getLsbD (7 - t % 8) = bits.getD t false := by
  fun_induction packBytes bits generalizing t with
  | case1 b0 b1 b2 b3 b4 b5 b6 b7 rest ih =>
    rcases Nat.lt_or_ge t 8 with hfirst | hrest
    · rw [Nat.div_eq_of_lt hfirst, Nat.mod_eq_of_lt hfirst, List.getD_cons_zero,
        packByte_getLsbD _ _ _ _ _ _ _ _ hfirst]
      exact (List.getD_append [b0, b1, b2, b3, b4, b5, b6, b7] rest false t hfirst).symm
    · obtain ⟨u, rfl⟩ := Nat.exists_eq_add_of_le' hrest
      rw [List.length_cons] at ht
      rw [Nat.add_div_right u (by omega), Nat.add_mod_right, List.getD_cons_succ, ih (by omega)]
      rfl
  | case2 bits hshort => exact absurd ht (Nat.not_lt_zero t)

theorem getD_append_filler (bits : Bits) (count t : Nat) :
    (bits ++ List.replicate count false).getD t false = bits.getD t false := by
  rcases Nat.lt_or_ge t bits.length with hlt | hge
  · exact List.getD_append _ _ _ _ hlt
  · rw [List.getD_append_right _ _ _ _ hge, List.getD_eq_default _ _ hge, List.getD_eq_getElem?_getD,
      List.getElem?_getD_replicate_default_eq]

/-- R150: the packed bytes hold the bits MSB-first, and zero bits from the last one on. -/
theorem pack_getLsbD (bits : Bits) {t : Nat} (ht : t < 8 * (pack bits).1.length) :
    ((pack bits).1.getD (t / 8) 0).getLsbD (7 - t % 8) = bits.getD t false :=
  (packBytes_getLsbD _ ht).trans (getD_append_filler bits _ t)

theorem pack_padding (bits : Bits) : (pack bits).2 = (8 - bits.length % 8) % 8 := rfl

/-- Settles O36: the byte count, the padding's formula, and the bits one by one. -/
theorem packAppendsZeroFillerBits : Obligations.PackAppendsZeroFillerBits := by
  intro bits
  have hpad := pack_padding bits
  exact ⟨pack_length bits, hpad, by omega, by omega, fun t => pack_getLsbD bits⟩

/-! ## `unpack` (R152, R153) -/

@[simp] theorem unpack_length (bytes : Bytes) (total : Nat) : (unpack bytes total).length = total := by
  simp [unpack]

theorem unpack_getElem {bytes : Bytes} {total t : Nat} (ht : t < (unpack bytes total).length) :
    (unpack bytes total)[t] = (bytes.getD (t / 8) 0).getLsbD (7 - t % 8) := by
  simp [unpack]

/-- R151: without the padding the packed bytes hold as many bits as were packed. -/
theorem pack_bit_count (bits : Bits) : 8 * (pack bits).1.length - (pack bits).2 = bits.length := by
  rw [pack_length, pack_padding]
  omega

/-- Settles O37: bit by bit, `unpack` reads where `pack` has put the bit. -/
theorem unpackUndoesPack : Obligations.UnpackUndoesPack := by
  intro bits
  rw [pack_bit_count]
  refine List.ext_getElem (unpack_length _ _) fun t _ ht => ?_
  have hin : t < 8 * (pack bits).1.length := by
    rw [pack_length]
    omega
  rw [unpack_getElem, pack_getLsbD bits hin, List.getD_eq_getElem _ _ ht]

/-! ## The coded bits of an input (R154) -/

/-- R154: an input whose every byte has a codeword is coded byte by byte. -/
theorem codeBits_of_known {table : Byte → Option Bits} {buf : Bytes}
    (h : ∀ b, b ∈ buf → table b ≠ none) :
    codeBits table buf = .ok (buf.flatMap fun b => (table b).getD []) :=
  codeBitsFrom_eq (fun b hb => Option.ne_none_iff_exists'.mp (h b hb)) 0

/-- R154: the first byte that the table lacks fails, with its index. -/
theorem codeBitsFrom_of_first {table : Byte → Option Bits} {buf : Bytes} {i : Nat} {b : Byte}
    (hb : buf[i]? = some b) (hnone : table b = none)
    (hfirst : ∀ k c, k < i → buf[k]? = some c → table c ≠ none) (start : Nat) :
    codeBitsFrom table start buf = .error (start + i) := by
  induction buf generalizing i start with
  | nil => simp at hb
  | cons c rest ih =>
    cases i with
    | zero =>
      obtain rfl : c = b := by simpa using hb
      simp only [codeBitsFrom, hnone, Nat.add_zero]
    | succ i =>
      obtain ⟨w, hw⟩ := Option.ne_none_iff_exists'.mp (hfirst 0 c (Nat.succ_pos i) rfl)
      have hrest := ih hb (fun k d hk hd => hfirst (k + 1) d (by omega) hd) (start + 1)
      simp only [codeBitsFrom, hw, hrest, Nat.add_right_comm start 1 i, Nat.add_assoc start i 1]

/-! ## The command PACK (R155) -/

theorem packStage_of_not_vCw {s : State} (h : s.vCw = false) :
    packStage s = packFail .notReady 0 s := if_pos h

theorem packStage_of_codeBits_error {s : State} {i : Nat} (hv : s.vCw = true)
    (h : codeBits (codeword s) (inputBytes s) = .error i) :
    packStage s = packFail .unknownSymbol (BitVec.ofNat 32 i) s := by
  rw [packStage, if_neg (by simp [hv]), h]

theorem packStage_of_codeBits_ok {s : State} {bits : Bits} (hv : s.vCw = true)
    (h : codeBits (codeword s) (inputBytes s) = .ok bits) :
    packStage s =
      if s.dbufCap < (pack bits).1.length then packFail .bufferOverflow 0 s
      else
        succeed
          { packStart s with
            dbuf := s.dbuf.writeBytes 0 (pack bits).1
            dlen := BitVec.ofNat 32 (pack bits).1.length
            pad := BitVec.ofNat 3 (pack bits).2 } := by
  rw [packStage, if_neg (by simp [hv]), h]

/-- However PACK ends, everything but the packed data and the report is as it was (R155, R79). -/
theorem packStage_frame (s : State) :
    KeepsRank s (packStage s).state ∧ KeepsTree s (packStage s).state ∧
      KeepsTable s (packStage s).state ∧ KeepsInput s (packStage s).state ∧
      KeepsTreeBytes s (packStage s).state ∧ KeepsOutput s (packStage s).state := by
  have hinput := stage_keepsInput .pack s
  rcases packStage_cases s with ⟨_, _, h⟩ | ⟨_, -, -, -, h⟩ <;> rw [h] at hinput ⊢ <;>
    exact ⟨⟨rfl, rfl, rfl⟩, ⟨rfl, rfl, rfl⟩, ⟨rfl, rfl, rfl⟩, hinput, ⟨rfl, rfl⟩, ⟨rfl, rfl⟩⟩

/-- PACK's failure, whichever it is: no packed data is left (R155, R61). -/
theorem packStage_error {s : State} {e : ErrorKind} {info : Word}
    (h : packStage s = packFail e info s) :
    ReportsError e.code info 0x04 (packStage s).state ∧ (packStage s).state.dlen = 0 ∧
      (packStage s).state.pad = 0 ∧ NothingSpecified (packStage s).state.dbuf := by
  rw [h]
  exact ⟨⟨rfl, rfl, rfl, rfl, rfl⟩, rfl, rfl, forget_read? s.dbuf⟩

/-- PACK's success: DBUF holds the packed bits, and keeps its bytes beyond them (R150, R61). -/
theorem packStage_success {s : State} {bits : Bits} (hv : s.vCw = true)
    (hbits : codeBits (codeword s) (inputBytes s) = .ok bits) (hcaps : CapsInRange s)
    (hfits : (bits.length + 7) / 8 ≤ s.dbufCap) :
    ReportsSuccess 0x04 (packStage s).state ∧ HoldsPacked bits (packStage s).state ∧
      SameFrom (packStage s).state.dlen.toNat s.dbuf (packStage s).state.dbuf := by
  obtain ⟨-, -, -, hmax⟩ := hcaps
  have hdlen : (BitVec.ofNat 32 (pack bits).1.length).toNat = (pack bits).1.length := by
    rw [Config.maxCap] at hmax
    rw [pack_length, BitVec.toNat_ofNat, Nat.mod_eq_of_lt (by omega)]
  have hpad : (BitVec.ofNat 3 (pack bits).2).toNat = (pack bits).2 := by
    rw [pack_padding, BitVec.toNat_ofNat, Nat.mod_eq_of_lt (by omega)]
  rw [packStage_of_codeBits_ok hv hbits, if_neg (by rw [pack_length]; omega)]
  refine ⟨⟨rfl, rfl, rfl, rfl, rfl⟩, ⟨?_, hdlen.trans (pack_length bits), hpad⟩, ?_⟩
  · show memRead .dbuf (s.dbuf.writeBytes 0 (pack bits).1) 0
      (BitVec.ofNat 32 (pack bits).1.length).toNat = (pack bits).1
    rw [hdlen, memRead_writeBytes]
  · show SameFrom (BitVec.ofNat 32 (pack bits).1.length).toNat s.dbuf _
    rw [hdlen]
    exact sameFrom_writeBytes s.dbuf (pack bits).1

/-- Settles O38: the report and DBUF in each case, over one frame for all four. -/
theorem packFollowsItsRule : Obligations.PackFollowsItsRule := by
  rintro s bits rfl
  refine ⟨fun hv => ?_, fun hv i b hb hnone hfirst => ?_, fun hv hknown hbig => ?_,
    fun hv hknown hcaps hfits => ?_⟩
  · obtain ⟨hreport, hdlen, hpad, hdbuf⟩ := packStage_error (packStage_of_not_vCw hv)
    exact ⟨_, rfl, hreport, hdlen, hpad, hdbuf, packStage_frame s⟩
  · have hbits : codeBits (codeword s) (inputBytes s) = .error i := by
      rw [codeBits, codeBitsFrom_of_first hb hnone hfirst, Nat.zero_add]
    obtain ⟨hreport, hdlen, hpad, hdbuf⟩ := packStage_error (packStage_of_codeBits_error hv hbits)
    exact ⟨_, rfl, hreport, hdlen, hpad, hdbuf, packStage_frame s⟩
  · have hstage := packStage_of_codeBits_ok hv (codeBits_of_known hknown)
    rw [if_pos (by rwa [pack_length])] at hstage
    obtain ⟨hreport, hdlen, hpad, hdbuf⟩ := packStage_error hstage
    exact ⟨_, rfl, hreport, hdlen, hpad, hdbuf, packStage_frame s⟩
  · obtain ⟨hreport, ⟨hpacked, hdlen, hpad⟩, hsame⟩ :=
      packStage_success hv (codeBits_of_known hknown) hcaps hfits
    exact ⟨_, rfl, hreport, hpacked, hdlen, hpad, hsame, packStage_frame s⟩

end Sys2Proof.Machine
end

section
/-! SUPPORT. The tree serializer's four statements (44_tree_serializer.md R165 to R171): that a tree is
rebuilt from its leaves, what the stages SER and DESER leave, and that DESER reads back what SER
stores. -/
namespace Sys2Proof.Machine

/-! ## The functions (R165, R168) -/

/-- R170: the chain is given by its leaves, whatever the tree. -/
theorem buildTree_leaves (t : CodeTree) : buildTree (leaves t) = .ok t := by
  fun_induction leaves t with
  | case1 left sym => rfl
  | case2 left sub ih => exact buildTree_cons (two_le_leaves_length sub) ih

theorem serializeTree_of_le {t : CodeTree} (h : (leaves t).length ≤ 255) :
    serializeTree t = .ok (BitVec.ofNat 8 (leaves t).length :: leaves t) := if_neg (by omega)

theorem serializeTree_of_gt {t : CodeTree} (h : 255 < (leaves t).length) :
    serializeTree t = .error ⟨.symbolCountOverflow, BitVec.ofNat 32 (leaves t).length⟩ := if_pos h

/-- R168: with the declared symbols all there, the tree is built from them. -/
theorem deserializeTree_of_count_le {c : Byte} {rest : Bytes} (h : c.toNat ≤ rest.length) :
    deserializeTree (c :: rest) = buildTree (rest.take c.toNat) :=
  if_neg (by rw [List.length_cons]; omega)

/-- A count of at most 255 is the value of the byte that holds it (R166). -/
theorem toNat_countByte {count : Nat} (h : count ≤ 255) : (BitVec.ofNat 8 count).toNat = count := by
  rw [BitVec.toNat_ofNat, Nat.mod_eq_of_lt (by omega)]

/-- Settles O39: the bytes declare all the leaves, and the leaves give the tree back. -/
theorem deserializeUndoesSerialize : Obligations.DeserializeUndoesSerialize := by
  refine fun t => ⟨fun h => ⟨_, serializeTree_of_le h, ?_⟩, serializeTree_of_gt⟩
  have hcount := toNat_countByte h
  rw [deserializeTree_of_count_le hcount.le, hcount, List.take_length, buildTree_leaves]

/-! ## The command SER (R167) -/

theorem serStage_of_not_vTree {s : State} (h : s.vTree = false) :
    serStage s = serFail .notReady 0 s := if_pos h

theorem serStage_of_tn_gt {s : State} (hv : s.vTree = true) (htn : 255 < s.tn.toNat) :
    serStage s = serFail .symbolCountOverflow (BitVec.ofNat 32 s.tn.toNat) s := by
  rw [serStage, if_neg (by simp [hv]), if_pos htn, BitVec.ofNat_toNat]

/-- The bytes that SER stores in its two writes, the count and the leaves, are one run (R167). -/
theorem serStage_of_tn_le {s : State} (hv : s.vTree = true) (htn : s.tn.toNat ≤ 255) :
    serStage s =
      succeed
        { serStart s with
          tbuf := s.tbuf.writeBytes 0 (BitVec.ofNat 8 s.tn.toNat :: leafList s)
          tlen := 1 + s.tn } := by
  rw [serStage, if_neg (by simp [hv]), if_neg (by omega), BitVec.ofNat_toNat]
  rfl

/-- However SER ends, everything but the tree's bytes and the report is as it was (R167, R79). -/
theorem serStage_frame (s : State) :
    KeepsRank s (serStage s).state ∧ KeepsTree s (serStage s).state ∧
      KeepsTable s (serStage s).state ∧ KeepsInput s (serStage s).state ∧
      KeepsPacked s (serStage s).state ∧ KeepsOutput s (serStage s).state := by
  obtain ⟨hrank, htree, htable⟩ := serStage_keepsFiles s
  refine ⟨hrank, htree, htable, stage_keepsInput .ser s, ?_⟩
  rcases serStage_cases s with ⟨_, _, h⟩ | ⟨-, -, h⟩ <;> rw [h] <;>
    exact ⟨⟨rfl, rfl, rfl⟩, rfl, rfl⟩

/-- SER's failure, whichever it is: no tree's bytes are left (R167, R61). -/
theorem serStage_error {s : State} {e : ErrorKind} {info : Word} (h : serStage s = serFail e info s) :
    ReportsError e.code info 0x05 (serStage s).state ∧ (serStage s).state.tlen = 0 ∧
      NothingSpecified (serStage s).state.tbuf := by
  rw [h]
  exact ⟨⟨rfl, rfl, rfl, rfl, rfl⟩, rfl, forget_read? s.tbuf⟩

/-- SER's success: TBUF holds the count and the leaves, and keeps its bytes beyond them (R167, R61). -/
theorem serStage_success {s : State} (hv : s.vTree = true) (htn : s.tn.toNat ≤ 255) :
    ReportsSuccess 0x05 (serStage s).state ∧
      treeBytes (serStage s).state = BitVec.ofNat 8 s.tn.toNat :: leafList s ∧
      (serStage s).state.tlen.toNat = 1 + s.tn.toNat ∧
      SameFrom (serStage s).state.tlen.toNat s.tbuf (serStage s).state.tbuf := by
  have htlen : (1 + s.tn).toNat = 1 + s.tn.toNat := by bv_omega
  have hlen : (1 + s.tn).toNat = (BitVec.ofNat 8 s.tn.toNat :: leafList s).length := by
    rw [htlen, List.length_cons, leafList_length]; omega
  rw [serStage_of_tn_le hv htn]
  refine ⟨⟨rfl, rfl, rfl, rfl, rfl⟩, ?_, htlen, ?_⟩
  · show memRead .tbuf (s.tbuf.writeBytes 0 _) 0 (1 + s.tn).toNat = _
    rw [hlen, memRead_writeBytes]
  · show SameFrom (1 + s.tn).toNat s.tbuf _
    rw [hlen]
    exact sameFrom_writeBytes s.tbuf _

/-- Settles O40: the report and TBUF in each case, over one frame for all three. -/
theorem serFollowsItsRule : Obligations.SerFollowsItsRule := by
  refine fun s => ⟨fun hv => ?_, fun hv htn => ?_, fun hv htn => ?_⟩
  · obtain ⟨hreport, htlen, htbuf⟩ := serStage_error (serStage_of_not_vTree hv)
    exact ⟨_, rfl, hreport, htlen, htbuf, serStage_frame s⟩
  · have hstage := serStage_of_tn_gt hv (by omega)
    rw [htn] at hstage
    obtain ⟨hreport, htlen, htbuf⟩ := serStage_error hstage
    exact ⟨_, rfl, hreport, htlen, htbuf, serStage_frame s⟩
  · obtain ⟨hreport, hbytes, htlen, hsame⟩ := serStage_success hv htn
    exact ⟨_, rfl, hreport, hbytes, htlen, hsame, serStage_frame s⟩

/-! ## The command DESER (R171) -/

theorem deserStage_of_tlen_eq_zero {s : State} (h : s.tlen = 0) :
    deserStage s = raise .malformedTree 0 (deserStart s) := by
  have hnil : treeBytes s = [] := by
    rw [← List.length_eq_zero_iff, treeBytes_length, h]; rfl
  rw [deserStage, hnil]

theorem deserStage_of_tlen_lt {s : State} {c : Byte} {rest : Bytes} (h : treeBytes s = c :: rest)
    (hlen : s.tlen.toNat < 1 + c.toNat) :
    deserStage s = raise .malformedTree (BitVec.ofNat 32 s.tlen.toNat) (deserStart s) := by
  simp only [deserStage, h, if_pos hlen, BitVec.ofNat_toNat]

theorem deserStage_of_count_lt_two {s : State} {c : Byte} {rest : Bytes}
    (h : treeBytes s = c :: rest) (hlen : 1 + c.toNat ≤ s.tlen.toNat) (hc : c.toNat < 2) :
    deserStage s =
      raise .insufficientSymbols (BitVec.ofNat 32 c.toNat) (deserRanked s (rest.take c.toNat)) := by
  simp only [deserStage, h, if_neg hlen.not_gt, if_pos hc, BitVec.ofNat_toNat]

theorem deserStage_of_two_le_count {s : State} {c : Byte} {rest : Bytes}
    (h : treeBytes s = c :: rest) (hlen : 1 + c.toNat ≤ s.tlen.toNat) (hc : 2 ≤ c.toNat) :
    deserStage s =
      succeed
        { deserRanked s (rest.take c.toNat) with
          tsym := loadFile s.tsym (rest.take c.toNat), tn := c.setWidth 9, vTree := true } := by
  simp only [deserStage, h, if_neg hlen.not_gt, if_neg hc.not_gt]

/-- However DESER ends, the table is invalid, and the input and every buffer are as they were (R45,
R79). -/
theorem deserStage_frame (s : State) :
    (deserStage s).state.vCw = false ∧ KeepsInput s (deserStage s).state ∧
      KeepsTreeBytes s (deserStage s).state ∧ KeepsPacked s (deserStage s).state ∧
      KeepsOutput s (deserStage s).state := by
  have hinput := stage_keepsInput .deser s
  rcases deserStage_cases s with ⟨_, h⟩ | ⟨_, _, -, -, ⟨-, h⟩ | ⟨-, h⟩⟩ <;> rw [h] at hinput ⊢ <;>
    exact ⟨rfl, hinput, ⟨rfl, rfl⟩, ⟨rfl, rfl, rfl⟩, ⟨rfl, rfl⟩⟩

/-- DESER without a whole tree in TBUF: nothing is loaded (R171). -/
theorem deserStage_malformed {s : State} {info : Word}
    (h : deserStage s = raise .malformedTree info (deserStart s)) :
    ReportsError 3 info 0x06 (deserStage s).state ∧ RankInvalid (deserStage s).state ∧
      TreeInvalid (deserStage s).state := by
  rw [h]
  exact ⟨⟨rfl, rfl, rfl, rfl, rfl⟩, ⟨rfl, rfl⟩, rfl, rfl⟩

theorem count_le_of_treeBytes {s : State} {c : Byte} {rest : Bytes} (h : treeBytes s = c :: rest)
    (hlen : 1 + c.toNat ≤ s.tlen.toNat) : c.toNat ≤ rest.length := by
  have htlen := tlen_of_treeBytes h
  omega

/-- The declared symbols, all there, are as many as the count says. -/
theorem declaredSymbols_length {s : State} {c : Byte} {rest : Bytes} (h : treeBytes s = c :: rest)
    (hlen : 1 + c.toNat ≤ s.tlen.toNat) : (rest.take c.toNat).length = c.toNat :=
  List.length_take_of_le (count_le_of_treeBytes h hlen)

/-- The rank order as DESER loads it, before the builder's check (R171). -/
theorem deserRanked_holdsRank (s : State) {r : Bytes} (h : r.length ≤ 256) :
    HoldsRank r (deserRanked s r) := by
  have hn : (BitVec.ofNat 9 r.length).toNat = r.length := by
    rw [BitVec.toNat_ofNat, Nat.mod_eq_of_lt (by omega)]
  exact ⟨rfl, hn, filePart_loadFile_ofNat s.rank r h⟩

/-- DESER of a count below 2: the builder's one error, the rank order loaded (R171). -/
theorem deserStage_insufficient {s : State} {c : Byte} {rest : Bytes} (h : treeBytes s = c :: rest)
    (hlen : 1 + c.toNat ≤ s.tlen.toNat) (hc : c.toNat < 2) :
    ReportsError 2 (BitVec.ofNat 32 c.toNat) 0x06 (deserStage s).state ∧
      HoldsRank (rest.take c.toNat) (deserStage s).state ∧ TreeInvalid (deserStage s).state := by
  have hcount := declaredSymbols_length h hlen
  rw [deserStage_of_count_lt_two h hlen hc]
  exact ⟨⟨rfl, rfl, rfl, rfl, rfl⟩, deserRanked_holdsRank s (by omega), rfl, rfl⟩

/-- DESER's success: RANK and TSYM hold the declared symbols (R171). -/
theorem deserStage_success {s : State} {c : Byte} {rest : Bytes} (h : treeBytes s = c :: rest)
    (hlen : 1 + c.toNat ≤ s.tlen.toNat) (hc : 2 ≤ c.toNat) :
    ReportsSuccess 0x06 (deserStage s).state ∧
      HoldsRank (rest.take c.toNat) (deserStage s).state ∧
      HoldsTree (rest.take c.toNat) (deserStage s).state := by
  have hcount := declaredSymbols_length h hlen
  have hlt := c.isLt
  have htn : (c.setWidth 9).toNat = (rest.take c.toNat).length := by
    rw [BitVec.toNat_setWidth, hcount]; omega
  have hleaves := filePart_loadFile_count s.tsym c rest (count_le_of_treeBytes h hlen)
  rw [deserStage_of_two_le_count h hlen hc]
  exact ⟨⟨rfl, rfl, rfl, rfl, rfl⟩, deserRanked_holdsRank s (by omega), rfl, htn, hleaves⟩

/-- Settles O41: the report and the files in each case, over one frame for all four. -/
theorem deserFollowsItsRule : Obligations.DeserFollowsItsRule := by
  refine fun s => ⟨fun h => ?_, fun c rest h hlen => ?_, fun c rest h hlen hc => ?_,
    fun c rest h hlen hc => ?_⟩
  · obtain ⟨hreport, hrank, htree⟩ := deserStage_malformed (deserStage_of_tlen_eq_zero h)
    exact ⟨_, rfl, hreport, hrank, htree, deserStage_frame s⟩
  · obtain ⟨hreport, hrank, htree⟩ := deserStage_malformed (deserStage_of_tlen_lt h hlen)
    exact ⟨_, rfl, hreport, hrank, htree, deserStage_frame s⟩
  · obtain ⟨hreport, ⟨hvalid, hn, hlist⟩, htree⟩ := deserStage_insufficient h hlen hc
    rw [declaredSymbols_length h hlen] at hn
    exact ⟨_, rfl, hreport, hlist, hn, hvalid, htree, deserStage_frame s⟩
  · obtain ⟨hreport, ⟨hvr, hn, hlist⟩, hvt, htn, hleaves⟩ := deserStage_success h hlen hc
    rw [declaredSymbols_length h hlen] at hn htn
    exact ⟨_, rfl, hreport, hlist, hleaves, hn, htn, hvr, hvt, deserStage_frame s⟩

/-! ## SER, then DESER (R170) -/

/-- Settles O42: DESER finds in TBUF the count and the leaves that SER stored. -/
theorem serThenDeserRestoresTheTree : Obligations.SerThenDeserRestoresTheTree := by
  intro s t u hv hmin hmax hser hdeser
  obtain rfl : (serStage s).state = t := Host.Outcome.next.inj hser
  obtain rfl : (deserStage (serStage s).state).state = u := Host.Outcome.next.inj hdeser
  obtain ⟨-, hbytes, htlen, -⟩ := serStage_success hv hmax
  have hcount := toNat_countByte hmax
  have hleaves : (leafList s).length = s.tn.toNat := by rw [leafList_length]; omega
  have htake : (leafList s).take (BitVec.ofNat 8 s.tn.toNat).toNat = leafList s :=
    List.take_of_length_le (by omega)
  obtain ⟨⟨hdone, -⟩, -, hvt, htn, hlist⟩ := deserStage_success hbytes (by omega) (by omega)
  rw [htake] at htn hlist
  exact ⟨hdone, hvt, BitVec.eq_of_toNat_eq (htn.trans hleaves), hlist⟩

end Sys2Proof.Machine
end

section
/-! SUPPORT. The container codec's four statements (45_container_codec.md R180 to R186): how `from_bytes`
answers in each case, what the stages TOBYTES and FROMBYTES leave, and that FROMBYTES takes apart what
TOBYTES puts together. -/
namespace Sys2Proof.Machine

/-! ## The function `from_bytes` (R183, R184) -/

theorem fromBytes_of_length_lt_two {buf : Bytes} (h : buf.length < 2) :
    fromBytes buf = .error ⟨.malformedContainer, 1⟩ := by
  match buf, h with
  | [], _ => rfl
  | [_], _ => rfl

/-- R184: the tree region reaches past the end of the buffer. -/
theorem fromBytes_of_tree_too_long {p sc : Byte} {rest : Bytes} (h : rest.length < sc.toNat) :
    fromBytes (p :: sc :: rest) = .error ⟨.malformedContainer, 2⟩ :=
  if_pos (by simp only [List.length_cons]; omega)

/-- With the declared symbols all there, only the padding byte is left to check (R184). -/
theorem fromBytes_of_count_le {p sc : Byte} {rest : Bytes} (h : sc.toNat ≤ rest.length) :
    fromBytes (p :: sc :: rest) =
      if 7 < p.toNat then .error ⟨.malformedContainer, 3⟩
      else
        .ok
          { padding := p
            serializedTree := sc :: rest.take sc.toNat
            packedData := rest.drop sc.toNat } :=
  if_neg (by simp only [List.length_cons]; omega)

theorem fromBytes_of_legal {p sc : Byte} {rest : Bytes} (h : sc.toNat ≤ rest.length)
    (hp : p.toNat ≤ 7) :
    fromBytes (p :: sc :: rest) =
      .ok
        { padding := p
          serializedTree := sc :: rest.take sc.toNat
          packedData := rest.drop sc.toNat } :=
  (fromBytes_of_count_le h).trans (if_neg hp.not_gt)

/-- Settles O43: the count byte says how many of the bytes after it are symbols, so the buffer is cut
where the two regions were joined. -/
theorem fromBytesUndoesToBytes : Obligations.FromBytesUndoesToBytes := by
  intro p c syms data hp hsyms
  have hcount : c.toNat ≤ (syms ++ data).length := by rw [List.length_append]; omega
  rw [toBytes, List.cons_append, fromBytes_of_legal hcount hp, List.take_left' hsyms,
    List.drop_left' hsyms]

/-! ## The command TOBYTES (R182) -/

theorem tobytesStage_of_overflow {s : State} (h : s.obufCap < 1 + s.tlen.toNat + s.dlen.toNat) :
    tobytesStage s = raise .bufferOverflow 0 { tobytesStart s with obuf := s.obuf.forget } := if_pos h

theorem tobytesStage_of_fits {s : State} (h : 1 + s.tlen.toNat + s.dlen.toNat ≤ s.obufCap) :
    tobytesStage s =
      succeed
        { tobytesStart s with
          obuf := s.obuf.writeBytes 0 (toBytes (heldContainer s))
          olen := BitVec.ofNat 32 (1 + s.tlen.toNat + s.dlen.toNat) } := if_neg h.not_gt

/-- However TOBYTES ends, everything but the output and the report is as it was (R182, R79). -/
theorem tobytesStage_frame (s : State) :
    KeepsRank s (tobytesStage s).state ∧ KeepsTree s (tobytesStage s).state ∧
      KeepsTable s (tobytesStage s).state ∧ KeepsInput s (tobytesStage s).state ∧
      KeepsTreeBytes s (tobytesStage s).state ∧ KeepsPacked s (tobytesStage s).state := by
  obtain ⟨hrank, htree, htable⟩ := tobytesStage_keepsFiles s
  refine ⟨hrank, htree, htable, stage_keepsInput .tobytes s, ?_⟩
  rcases tobytesStage_cases s with ⟨-, h⟩ | ⟨-, h⟩ <;> rw [h] <;>
    exact ⟨⟨rfl, rfl⟩, rfl, rfl, rfl⟩

/-- TOBYTES of a container that does not fit: no output is left (R182, R61). -/
theorem tobytesStage_error {s : State} (h : s.obufCap < 1 + s.tlen.toNat + s.dlen.toNat) :
    ReportsError 8 0 0x07 (tobytesStage s).state ∧ (tobytesStage s).state.olen = 0 ∧
      NothingSpecified (tobytesStage s).state.obuf := by
  rw [tobytesStage_of_overflow h]
  exact ⟨⟨rfl, rfl, rfl, rfl, rfl⟩, rfl, forget_read? s.obuf⟩

/-- TOBYTES' success: OBUF holds the container, and keeps its bytes beyond it (R182, R61). -/
theorem tobytesStage_success {s : State} (hcaps : CapsInRange s)
    (hfits : 1 + s.tlen.toNat + s.dlen.toNat ≤ s.obufCap) :
    ReportsSuccess 0x07 (tobytesStage s).state ∧
      outputBytes (tobytesStage s).state = toBytes (heldContainer s) ∧
      (tobytesStage s).state.olen.toNat = 1 + s.tlen.toNat + s.dlen.toNat ∧
      SameFrom (tobytesStage s).state.olen.toNat s.obuf (tobytesStage s).state.obuf := by
  obtain ⟨-, ⟨-, hmax⟩, -⟩ := hcaps
  have holen : (BitVec.ofNat 32 (1 + s.tlen.toNat + s.dlen.toNat)).toNat =
      1 + s.tlen.toNat + s.dlen.toNat := by
    rw [Config.maxCap] at hmax
    rw [BitVec.toNat_ofNat, Nat.mod_eq_of_lt (by omega)]
  have hlen := holen.trans (toBytes_heldContainer_length s).symm
  rw [tobytesStage_of_fits hfits]
  refine ⟨⟨rfl, rfl, rfl, rfl, rfl⟩, ?_, holen, ?_⟩
  · show memRead .obuf (s.obuf.writeBytes 0 _) 0
      (BitVec.ofNat 32 (1 + s.tlen.toNat + s.dlen.toNat)).toNat = _
    rw [hlen, memRead_writeBytes]
  · show SameFrom (BitVec.ofNat 32 (1 + s.tlen.toNat + s.dlen.toNat)).toNat s.obuf _
    rw [hlen]
    exact sameFrom_writeBytes s.obuf _

/-- The container in the words of R182: PAD, then TBUF[0..TLEN), then DBUF[0..DLEN). -/
theorem toBytes_heldContainer (s : State) :
    toBytes (heldContainer s) = BitVec.ofNat 8 s.pad.toNat :: (treeBytes s ++ packedBytes s) := by
  rw [BitVec.ofNat_toNat]; rfl

/-- Settles O44: the report and OBUF in each case, over one frame for both. -/
theorem tobytesFollowsItsRule : Obligations.TobytesFollowsItsRule := by
  refine fun s => ⟨fun hbig => ?_, fun hcaps hfits => ?_⟩
  · obtain ⟨hreport, holen, hobuf⟩ := tobytesStage_error hbig
    exact ⟨_, rfl, hreport, holen, hobuf, tobytesStage_frame s⟩
  · obtain ⟨hreport, hbytes, holen, hsame⟩ := tobytesStage_success hcaps hfits
    rw [toBytes_heldContainer] at hbytes
    exact ⟨_, rfl, hreport, hbytes, holen, hsame, tobytesStage_frame s⟩

/-! ## The command FROMBYTES (R185) -/

theorem frombytesStage_of_error {s : State} {f : Failure} (h : fromBytes (inputBytes s) = .error f) :
    frombytesStage s = frombytesFail f s := by
  rw [frombytesStage, h]

theorem frombytesStage_of_ok {s : State} {c : Container} (h : fromBytes (inputBytes s) = .ok c) :
    frombytesStage s =
      if s.dbufCap < c.packedData.length then frombytesFail ⟨.bufferOverflow, 0⟩ s
      else
        succeed
          { frombytesStart s with
            tbuf := s.tbuf.writeBytes 0 c.serializedTree
            dbuf := s.dbuf.writeBytes 0 c.packedData
            pad := c.padding.setWidth 3
            tlen := BitVec.ofNat 9 c.serializedTree.length
            dlen := BitVec.ofNat 32 c.packedData.length } := by
  rw [frombytesStage, h]

/-- However FROMBYTES ends, everything but the container's parts and the report is as it was (R185,
R79). -/
theorem frombytesStage_frame (s : State) :
    KeepsRank s (frombytesStage s).state ∧ KeepsTree s (frombytesStage s).state ∧
      KeepsTable s (frombytesStage s).state ∧ KeepsInput s (frombytesStage s).state ∧
      KeepsOutput s (frombytesStage s).state := by
  obtain ⟨hrank, htree, htable⟩ := frombytesStage_keepsFiles s
  refine ⟨hrank, htree, htable, stage_keepsInput .frombytes s, ?_⟩
  rcases frombytesStage_cases s with ⟨_, h⟩ | ⟨_, -, -, h⟩ <;> rw [h] <;> exact ⟨rfl, rfl⟩

/-- FROMBYTES' failure, whichever it is: no part of a container is left (R185, R61). -/
theorem frombytesStage_error {s : State} {f : Failure} (h : frombytesStage s = frombytesFail f s) :
    ReportsError f.kind.code f.info 0x08 (frombytesStage s).state ∧
      (frombytesStage s).state.pad = 0 ∧ (frombytesStage s).state.tlen = 0 ∧
      (frombytesStage s).state.dlen = 0 ∧ NothingSpecified (frombytesStage s).state.tbuf ∧
      NothingSpecified (frombytesStage s).state.dbuf := by
  rw [h]
  exact ⟨⟨rfl, rfl, rfl, rfl, rfl⟩, rfl, rfl, rfl, forget_read? s.tbuf, forget_read? s.dbuf⟩

/-- PAD, TBUF and DBUF hold the parts of the container `c`, TLEN and DLEN their lengths (R28, R29). -/
def HoldsContainer (c : Container) (t : State) : Prop :=
  t.pad.toNat = c.padding.toNat ∧ treeBytes t = c.serializedTree ∧ packedBytes t = c.packedData ∧
    t.tlen.toNat = c.serializedTree.length ∧ t.dlen.toNat = c.packedData.length

theorem ilen_of_inputBytes {s : State} {p sc : Byte} {rest : Bytes}
    (h : inputBytes s = p :: sc :: rest) : s.ilen.toNat = rest.length + 2 := by
  rw [← inputBytes_length, h, List.length_cons, List.length_cons]

/-- A container that parses fits the registers: PAD, TLEN and DLEN take its values whole (R185). -/
theorem registerWidths_of_fromBytes {s : State} {c : Container}
    (h : fromBytes (inputBytes s) = .ok c) :
    (c.padding.setWidth 3).toNat = c.padding.toNat ∧
      (BitVec.ofNat 9 c.serializedTree.length).toNat = c.serializedTree.length ∧
      (BitVec.ofNat 32 c.packedData.length).toNat = c.packedData.length := by
  have htree := serializedTree_length_le h
  obtain ⟨sc, rest, hbuf, -, hpad, -, hdata⟩ := fromBytes_ok h
  have hilen := ilen_of_inputBytes hbuf
  have hlt := s.ilen.isLt
  rw [Config.tbufCap] at htree
  refine ⟨?_, ?_, ?_⟩
  · rw [BitVec.toNat_setWidth, Nat.mod_eq_of_lt (by omega)]
  · rw [BitVec.toNat_ofNat, Nat.mod_eq_of_lt (by omega)]
  · rw [hdata, List.length_drop, BitVec.toNat_ofNat, Nat.mod_eq_of_lt (by omega)]

/-- FROMBYTES' success: PAD, TBUF and DBUF hold the container's parts, and the buffers keep their bytes
beyond them (R185, R61). -/
theorem frombytesStage_success {s : State} {c : Container} (h : fromBytes (inputBytes s) = .ok c)
    (hfits : c.packedData.length ≤ s.dbufCap) :
    ReportsSuccess 0x08 (frombytesStage s).state ∧ HoldsContainer c (frombytesStage s).state ∧
      SameFrom (frombytesStage s).state.tlen.toNat s.tbuf (frombytesStage s).state.tbuf ∧
      SameFrom (frombytesStage s).state.dlen.toNat s.dbuf (frombytesStage s).state.dbuf := by
  obtain ⟨hpad, htlen, hdlen⟩ := registerWidths_of_fromBytes h
  have htree : memRead .tbuf (s.tbuf.writeBytes 0 c.serializedTree) 0
      (BitVec.ofNat 9 c.serializedTree.length).toNat = c.serializedTree := by
    rw [htlen, memRead_writeBytes]
  have hdata : memRead .dbuf (s.dbuf.writeBytes 0 c.packedData) 0
      (BitVec.ofNat 32 c.packedData.length).toNat = c.packedData := by
    rw [hdlen, memRead_writeBytes]
  rw [frombytesStage_of_ok h, if_neg hfits.not_gt]
  refine ⟨⟨rfl, rfl, rfl, rfl, rfl⟩, ⟨hpad, htree, hdata, htlen, hdlen⟩, ?_, ?_⟩
  · show SameFrom (BitVec.ofNat 9 c.serializedTree.length).toNat s.tbuf _
    rw [htlen]
    exact sameFrom_writeBytes s.tbuf _
  · show SameFrom (BitVec.ofNat 32 c.packedData.length).toNat s.dbuf _
    rw [hdlen]
    exact sameFrom_writeBytes s.dbuf _

/-- The failure of FROMBYTES on an input of two or more bytes, in the order of R185. -/
theorem frombytesStage_fails {s : State} {p sc : Byte} {rest : Bytes} {code : BitVec 4} {info : Word}
    (h : inputBytes s = p :: sc :: rest)
    (hcase : s.ilen.toNat < 2 + sc.toNat ∧ code = 4 ∧ info = 2 ∨
      2 + sc.toNat ≤ s.ilen.toNat ∧ 7 < p.toNat ∧ code = 4 ∧ info = 3 ∨
      2 + sc.toNat ≤ s.ilen.toNat ∧ p.toNat ≤ 7 ∧ s.dbufCap < s.ilen.toNat - 2 - sc.toNat ∧
        code = 8 ∧ info = 0) :
    ∃ f : Failure, frombytesStage s = frombytesFail f s ∧ f.kind.code = code ∧ f.info = info := by
  have hilen := ilen_of_inputBytes h
  rcases hcase with ⟨hlong, rfl, rfl⟩ | ⟨hcount, hp, rfl, rfl⟩ | ⟨hcount, hp, hbig, rfl, rfl⟩
  · refine ⟨⟨.malformedContainer, 2⟩, frombytesStage_of_error ?_, rfl, rfl⟩
    rw [h, fromBytes_of_tree_too_long (by omega)]
  · refine ⟨⟨.malformedContainer, 3⟩, frombytesStage_of_error ?_, rfl, rfl⟩
    rw [h, fromBytes_of_count_le (by omega), if_pos hp]
  · refine ⟨⟨.bufferOverflow, 0⟩, ?_, rfl, rfl⟩
    have hparse := fromBytes_of_legal (p := p) (sc := sc) (rest := rest) (by omega) hp
    rw [← h] at hparse
    rw [frombytesStage_of_ok hparse, if_pos (by rw [List.length_drop]; omega)]

/-- Settles O45: the report and the parts in each case, over one frame for all. -/
theorem frombytesFollowsItsRule : Obligations.FrombytesFollowsItsRule := by
  refine fun s => ⟨fun hshort => ?_, fun p sc rest code info h hcase => ?_,
    fun p sc rest h hcount hp hfits => ?_⟩
  · have hfail := fromBytes_of_length_lt_two ((inputBytes_length s).trans_lt hshort)
    obtain ⟨hreport, hpad, htlen, hdlen, htbuf, hdbuf⟩ :=
      frombytesStage_error (frombytesStage_of_error hfail)
    exact ⟨_, rfl, hreport, hpad, htlen, hdlen, htbuf, hdbuf, frombytesStage_frame s⟩
  · obtain ⟨f, hstage, rfl, rfl⟩ := frombytesStage_fails h hcase
    obtain ⟨hreport, hpad, htlen, hdlen, htbuf, hdbuf⟩ := frombytesStage_error hstage
    exact ⟨_, rfl, hreport, hpad, htlen, hdlen, htbuf, hdbuf, frombytesStage_frame s⟩
  · have hilen := ilen_of_inputBytes h
    have hparse := fromBytes_of_legal (p := p) (sc := sc) (rest := rest) (by omega) hp
    rw [← h] at hparse
    have hdata : (rest.drop sc.toNat).length = s.ilen.toNat - 2 - sc.toNat := by
      rw [List.length_drop]; omega
    have htree : (sc :: rest.take sc.toNat).length = 1 + sc.toNat := by
      rw [List.length_cons, List.length_take]; omega
    obtain ⟨hreport, ⟨hpad, hbytes, hpacked, htlen, hdlen⟩, hsamet, hsamed⟩ :=
      frombytesStage_success hparse (hdata.trans_le hfits)
    exact ⟨_, rfl, hreport, hpad, hbytes, hpacked, htlen.trans htree, hdlen.trans hdata, hsamet,
      hsamed, frombytesStage_frame s⟩

/-! ## TOBYTES, MOVE, FROMBYTES (R186) -/

/-- TOBYTES sets DONE only for a container that fits. -/
theorem fits_of_tobytesStage_done {s : State} (h : (tobytesStage s).state.statusDone = true) :
    1 + s.tlen.toNat + s.dlen.toNat ≤ s.obufCap := by
  by_contra hbig
  obtain ⟨⟨hdone, -⟩, -⟩ := tobytesStage_error (not_le.mp hbig)
  exact absurd (h.symm.trans hdone) (by decide)

/-- PAD zero-extended keeps its value (R182). -/
theorem padByte_toNat (s : State) : (padByte s).toNat = s.pad.toNat :=
  BitVec.toNat_setWidth_of_le (by decide)

/-- R186 for the container that a state holds: PAD has three bits, so its padding is legal. -/
theorem fromBytes_toBytes_heldContainer {s : State} {c : Byte} {syms : Bytes}
    (htree : treeBytes s = c :: syms) (hsyms : syms.length = c.toNat) :
    fromBytes (toBytes (heldContainer s)) = .ok (heldContainer s) := by
  have hpad : (padByte s).toNat ≤ 7 := by rw [padByte_toNat]; omega
  rw [heldContainer, htree]
  exact fromBytesUndoesToBytes (padByte s) c syms (packedBytes s) hpad hsyms

/-- Settles O46: the input of FROMBYTES is the container of `s`, which parses and is held again. -/
theorem frombytesAfterTobytesRestoresTheParts :
    Obligations.FrombytesAfterTobytesRestoresTheParts := by
  intro s t t' u c syms hcaps htree hsyms htobytes hdone hmove hcap hfrombytes
  obtain rfl : (tobytesStage s).state = t := Host.Outcome.next.inj htobytes
  obtain rfl : (frombytesStage t').state = u := Host.Outcome.next.inj hfrombytes
  obtain ⟨-, hout, -⟩ := tobytesStage_success hcaps (fits_of_tobytesStage_done hdone)
  have hparse : fromBytes (inputBytes t') = .ok (heldContainer s) := by
    rw [hmove, hout, fromBytes_toBytes_heldContainer htree hsyms]
  have hfits : (heldContainer s).packedData.length ≤ t'.dbufCap :=
    (packedBytes_length s).trans_le hcap
  obtain ⟨⟨hdone', -⟩, ⟨hpad, hbytes, hpacked, -⟩, -⟩ := frombytesStage_success hparse hfits
  exact ⟨hdone', BitVec.eq_of_toNat_eq (hpad.trans (padByte_toNat s)), hbytes, hpacked⟩

end Sys2Proof.Machine
end

section
/-! SUPPORT. The walker's three statements (46_decoder.md R195 to R200): that it stays in the tree, that
it inverts the coder codeword by codeword, and what the stage WALK leaves. -/
namespace Sys2Proof.Machine

/-! ## The loop, bit by bit (R196) -/

theorem walkFrom_false (r : Bytes) (level : Nat) (rest : Bits) :
    walkFrom r level (false :: rest) = (r.getD level 0 :: (walk r rest).1, (walk r rest).2) := rfl

/-- At the last level the right node is the terminal leaf. -/
theorem walkFrom_true_last (r : Bytes) (rest : Bits) :
    walkFrom r (r.length - 2) (true :: rest) =
      (r.getD (r.length - 1) 0 :: (walk r rest).1, (walk r rest).2) := if_pos rfl

/-- At an earlier level the right node is a branch. -/
theorem walkFrom_true_descend {r : Bytes} {level : Nat} (h : level < r.length - 2) (rest : Bits) :
    walkFrom r level (true :: rest) = walkFrom r (level + 1) rest := if_neg h.ne

/-! ## The walk stays in the tree (R196, R197) -/

theorem walkFrom_level_le {r : Bytes} {level : Nat} (h : level ≤ r.length - 2) (bits : Bits) :
    (walkFrom r level bits).2 ≤ r.length - 2 := by
  fun_induction walkFrom r level bits with
  | case1 level => exact h
  | case2 level rest ih => exact ih (Nat.zero_le _)
  | case3 rest ih => exact ih (Nat.zero_le _)
  | case4 level rest hne ih => exact ih (by omega)

theorem walkFrom_output_length_le (r : Bytes) (level : Nat) (bits : Bits) :
    (walkFrom r level bits).1.length ≤ bits.length := by
  fun_induction walkFrom r level bits with
  | case1 level => exact le_rfl
  | case2 level rest ih => exact Nat.succ_le_succ ih
  | case3 rest ih => exact Nat.succ_le_succ ih
  | case4 level rest hne ih => exact Nat.le_succ_of_le ih

theorem getD_mem_of_lt {r : Bytes} {i : Nat} (h : i < r.length) : r.getD i 0 ∈ r := by
  rw [List.getD_eq_getElem _ _ h]
  exact List.getElem_mem h

theorem mem_of_mem_walkFrom {r : Bytes} (hr : 2 ≤ r.length) {level : Nat} (h : level ≤ r.length - 2)
    {bits : Bits} {b : Byte} (hb : b ∈ (walkFrom r level bits).1) : b ∈ r := by
  fun_induction walkFrom r level bits with
  | case1 level => cases hb
  | case2 level rest ih =>
    rcases List.mem_cons.mp hb with rfl | hb
    · exact getD_mem_of_lt (by omega)
    · exact ih (Nat.zero_le _) hb
  | case3 rest ih =>
    rcases List.mem_cons.mp hb with rfl | hb
    · exact getD_mem_of_lt (by omega)
    · exact ih (Nat.zero_le _) hb
  | case4 level rest hne ih => exact ih (by omega) hb

/-- R197: with two symbols the root is the last level too, so every bit completes a symbol. -/
theorem walk_output_length_of_two {r : Bytes} (hr : r.length = 2) (bits : Bits) :
    (walk r bits).1.length = bits.length := by
  induction bits with
  | nil => rfl
  | cons bit rest ih =>
    have hlast := walkFrom_true_last r rest
    rw [hr] at hlast
    cases bit with
    | false => rw [walk, walkFrom_false, List.length_cons, List.length_cons, ih]
    | true => rw [walk, hlast, List.length_cons, List.length_cons, ih]

/-- Settles O47: bit by bit, the level stays at most n - 2 and what is emitted stands at a place of the
chain; n - 2 is 0 for two symbols. -/
theorem walkStaysInTheTree : Obligations.WalkStaysInTheTree := by
  intro syms bits hsyms
  have hlevel : (walk syms bits).2 ≤ syms.length - 2 := walkFrom_level_le (Nat.zero_le _) bits
  exact ⟨hlevel, walkFrom_output_length_le syms 0 bits,
    fun b => mem_of_mem_walkFrom hsyms (Nat.zero_le _),
    fun htwo => ⟨by omega, walk_output_length_of_two htwo bits⟩⟩

/-! ## The walk of a codeword (R200) -/

/-- Ones descend, as far as the last level. -/
theorem walkFrom_replicate_true {r : Bytes} {level k : Nat} (h : level + k ≤ r.length - 2)
    (rest : Bits) :
    walkFrom r level (List.replicate k true ++ rest) = walkFrom r (level + k) rest := by
  induction k generalizing level with
  | zero => rfl
  | succ k ih =>
    rw [List.replicate_succ, List.cons_append, walkFrom_true_descend (by omega), ih (by omega),
      Nat.add_right_comm, Nat.add_assoc]

/-- Reading the codeword of a leaf emits the leaf and goes back to the root. -/
theorem walk_chainCode {r : Bytes} (hr : 2 ≤ r.length) {i : Nat} (hi : i < r.length) (rest : Bits) :
    walk r (chainCode r.length i ++ rest) = (r[i] :: (walk r rest).1, (walk r rest).2) := by
  rw [walk, chainCode]
  split
  · rw [List.append_assoc, walkFrom_replicate_true (by omega), Nat.zero_add, List.singleton_append,
      walkFrom_false, List.getD_eq_getElem _ _ hi]
  · obtain rfl : i = r.length - 1 := by omega
    have hones : List.replicate (r.length - 1) true = List.replicate (r.length - 2) true ++ [true] := by
      rw [← List.replicate_succ']
      congr 1
      omega
    rw [hones, List.append_assoc, walkFrom_replicate_true (by omega), Nat.zero_add,
      List.singleton_append, walkFrom_true_last, List.getD_eq_getElem _ _ hi]

/-- R200 on the chain's leaves: the coded bits are walked codeword by codeword. -/
theorem walk_codedBits {r buf : Bytes} (hr : 2 ≤ r.length) (hnodup : r.Nodup)
    (h : ∀ b ∈ buf, b ∈ r) : walk r (codedBits r buf) = (buf, 0) := by
  induction buf with
  | nil => rfl
  | cons b rest ih =>
    obtain ⟨hb, hrest⟩ := List.forall_mem_cons.mp h
    obtain ⟨i, hi, rfl⟩ := List.getElem_of_mem hb
    have hcode : (chainEntries r).lookup r[i] = some (chainCode r.length i) :=
      (codeOf_chainEntries_eq_some_iff hnodup r[i] _).mpr ⟨i, List.getElem?_eq_getElem hi, rfl⟩
    have hbits : codedBits r (r[i] :: rest) = chainCode r.length i ++ codedBits r rest := by
      simp [codedBits, hcode]
    rw [hbits, walk_chainCode hr hi, ih hrest]

/-- Settles O48: the derived table is the chain's, whose coded bits the walk takes back. -/
theorem walkInvertsTheCoder : Obligations.WalkInvertsTheCoder := by
  intro r buf t table hnodup ht htable hbuf
  obtain rfl := leaves_of_buildTree ht
  obtain ⟨-, rfl⟩ := deriveTable_ok htable
  exact ⟨_, codeBits_chainEntries hbuf, walk_codedBits (two_le_leaves_length t) hnodup hbuf⟩

/-! ## The command WALK (R198) -/

theorem walkStage_of_not_vTree {s : State} (h : s.vTree = false) :
    walkStage s = walkFail .notReady 0 s := if_pos h

theorem walkStage_of_pad_gt {s : State} (hv : s.vTree = true) (hpad : 8 * s.dlen.toNat < s.pad.toNat) :
    walkStage s = walkFail .malformedContainer 4 s := by
  rw [walkStage, if_neg (by simp [hv]), if_pos hpad]

/-- With a tree and a legal PAD, WALK goes by the level and the output of the walk. -/
theorem walkStage_of_walk {s : State} {out : Bytes} {level : Nat} (hv : s.vTree = true)
    (hpad : s.pad.toNat ≤ 8 * s.dlen.toNat) (hwalk : walk (leafList s) (dataBits s) = (out, level)) :
    walkStage s =
      if level ≠ 0 then walkFail .truncatedBitstream (BitVec.ofNat 32 level) s
      else if s.obufCap < out.length then walkFail .bufferOverflow 0 s
      else
        succeed
          { walkStart s with
            obuf := s.obuf.writeBytes 0 out
            olen := BitVec.ofNat 32 out.length } := by
  rw [walkStage, if_neg (by simp [hv]), if_neg hpad.not_gt, hwalk]

/-- However WALK ends, everything but the output and the report is as it was (R198, R79). -/
theorem walkStage_frame (s : State) :
    KeepsRank s (walkStage s).state ∧ KeepsTree s (walkStage s).state ∧
      KeepsTable s (walkStage s).state ∧ KeepsInput s (walkStage s).state ∧
      KeepsTreeBytes s (walkStage s).state ∧ KeepsPacked s (walkStage s).state := by
  obtain ⟨hrank, htree, htable⟩ := walkStage_keepsFiles s
  refine ⟨hrank, htree, htable, stage_keepsInput .walk s, ?_⟩
  rcases walkStage_cases s with ⟨_, _, h⟩ | ⟨-, -, -, -, h⟩ <;> rw [h] <;>
    exact ⟨⟨rfl, rfl⟩, rfl, rfl, rfl⟩

/-- WALK's failure, whichever it is: no output is left (R198, R61). -/
theorem walkStage_error {s : State} {e : ErrorKind} {info : Word}
    (h : walkStage s = walkFail e info s) :
    ReportsError e.code info 0x09 (walkStage s).state ∧ (walkStage s).state.olen = 0 ∧
      NothingSpecified (walkStage s).state.obuf := by
  rw [h]
  exact ⟨⟨rfl, rfl, rfl, rfl, rfl⟩, rfl, forget_read? s.obuf⟩

/-- The failure of WALK in the order of R198. -/
theorem walkStage_fails {s : State} {out : Bytes} {level : Nat} {code : BitVec 4} {info : Word}
    (hwalk : walk (leafList s) (dataBits s) = (out, level))
    (hcase : s.vTree = false ∧ code = 9 ∧ info = 0 ∨
      s.vTree = true ∧ 8 * s.dlen.toNat < s.pad.toNat ∧ code = 4 ∧ info = 4 ∨
      s.vTree = true ∧ s.pad.toNat ≤ 8 * s.dlen.toNat ∧ level ≠ 0 ∧ code = 5 ∧
        info = BitVec.ofNat 32 level ∨
      s.vTree = true ∧ s.pad.toNat ≤ 8 * s.dlen.toNat ∧ level = 0 ∧
        s.obufCap < out.length ∧ code = 8 ∧ info = 0) :
    ∃ e : ErrorKind, walkStage s = walkFail e info s ∧ e.code = code := by
  rcases hcase with ⟨hv, rfl, rfl⟩ | ⟨hv, hpad, rfl, rfl⟩ | ⟨hv, hpad, hlevel, rfl, rfl⟩ |
    ⟨hv, hpad, hlevel, hbig, rfl, rfl⟩
  · exact ⟨.notReady, walkStage_of_not_vTree hv, rfl⟩
  · exact ⟨.malformedContainer, walkStage_of_pad_gt hv hpad, rfl⟩
  · exact ⟨.truncatedBitstream, (walkStage_of_walk hv hpad hwalk).trans (if_pos hlevel), rfl⟩
  · refine ⟨.bufferOverflow, ?_, rfl⟩
    rw [walkStage_of_walk hv hpad hwalk, if_neg (not_not.mpr hlevel), if_pos hbig]

/-- WALK's success: OBUF holds the output of the walk, and keeps its bytes beyond it (R198, R61). -/
theorem walkStage_success {s : State} {out : Bytes} (hv : s.vTree = true)
    (hpad : s.pad.toNat ≤ 8 * s.dlen.toNat) (hwalk : walk (leafList s) (dataBits s) = (out, 0))
    (hcaps : CapsInRange s) (hfits : out.length ≤ s.obufCap) :
    ReportsSuccess 0x09 (walkStage s).state ∧ outputBytes (walkStage s).state = out ∧
      (walkStage s).state.olen.toNat = out.length ∧
      SameFrom (walkStage s).state.olen.toNat s.obuf (walkStage s).state.obuf := by
  obtain ⟨-, ⟨-, hmax⟩, -⟩ := hcaps
  have holen : (BitVec.ofNat 32 out.length).toNat = out.length := by
    rw [Config.maxCap] at hmax
    rw [BitVec.toNat_ofNat, Nat.mod_eq_of_lt (by omega)]
  rw [walkStage_of_walk hv hpad hwalk, if_neg (not_not.mpr rfl), if_neg hfits.not_gt]
  refine ⟨⟨rfl, rfl, rfl, rfl, rfl⟩, ?_, holen, ?_⟩
  · show memRead .obuf (s.obuf.writeBytes 0 out) 0 (BitVec.ofNat 32 out.length).toNat = out
    rw [holen, memRead_writeBytes]
  · show SameFrom (BitVec.ofNat 32 out.length).toNat s.obuf _
    rw [holen]
    exact sameFrom_writeBytes s.obuf out

/-- Settles O49: the report and OBUF in each case, over one frame for all. -/
theorem walkFollowsItsRule : Obligations.WalkFollowsItsRule := by
  refine fun s out level hwalk => ⟨fun code info hcase => ?_, fun hv hpad hlevel hcaps hfits => ?_⟩
  · obtain ⟨e, hstage, rfl⟩ := walkStage_fails hwalk hcase
    obtain ⟨hreport, holen, hobuf⟩ := walkStage_error hstage
    exact ⟨_, rfl, hreport, holen, hobuf, walkStage_frame s⟩
  · subst hlevel
    obtain ⟨hreport, hbytes, holen, hsame⟩ := walkStage_success hv hpad hwalk hcaps hfits
    exact ⟨_, rfl, hreport, hbytes, holen, hsame, walkStage_frame s⟩

end Sys2Proof.Machine
end

section
/-! SUPPORT. How a composite runs (47_composite.md R210): a sequence of stages goes on exactly after a
stage that reports success, which is the host's reading of STATUS, and what a sequence leaves is found
stage by stage. -/
namespace Sys2Proof.Machine

/-! ## The sequence of stages -/

theorem andThen_assoc (x : StageExit) (f g : State → StageExit) :
    (x.andThen f).andThen g = x.andThen fun t => (f t).andThen g := by
  cases x <;> rfl

theorem andThen_success_right (x : StageExit) : x.andThen .success = x := by
  cases x <;> rfl

/-- A stage command issued first by the host is the stage put first in the sequence: STATUS.ERR after it
tells whether it raised (R210, R244, R245). -/
theorem runUntilError_cons {i : Instr} {op : BitVec 8} {f : State → StageExit} (hf : IsStage op f)
    (hi : ∀ s, exec i s = (f s).outcome) {rest : List Instr} {g : State → StageExit}
    (hrest : ∀ t, runUntilError rest t = (g t).outcome) (s : State) :
    runUntilError (i :: rest) s = ((f s).andThen g).outcome := by
  obtain ⟨u, hx | ⟨e, info, hx⟩, -, -⟩ := stage_ends hf s
  · simp only [runUntilError, hi, hx, succeed_outcome, reportSuccess_statusErr, Bool.false_eq_true,
      if_false, hrest, andThen_succeed]
  · simp only [runUntilError, hi, hx, raise_outcome, reportError_statusErr, if_true, andThen_raise]

/-- Settles O50: the stages joined from the last to the first, each with its stage command. -/
theorem compositesAreTheirStagesInOrder : Obligations.CompositesAreTheirStagesInOrder := by
  intro s
  have hnil : ∀ t, runUntilError [] t = (StageExit.success t).outcome := fun _ => rfl
  constructor
  · have htobytes := runUntilError_cons .tobytes (i := .tobytes) (fun _ => rfl) hnil
    have hser := runUntilError_cons .ser (i := .ser) (fun _ => rfl) htobytes
    have hpack := runUntilError_cons .pack (i := .pack) (fun _ => rfl) hser
    have hderive := runUntilError_cons .derive (i := .derive) (fun _ => rfl) hpack
    have hbuild := runUntilError_cons .build (i := .build) (fun _ => rfl) hderive
    have hrank := runUntilError_cons .rank (i := .rank) (fun _ => rfl) hbuild
    rw [runUntilError_cons .clear (i := .clear) (fun _ => rfl) hrank]
    simp only [exec, execEncode, encodeStages, andThen_assoc, andThen_success_right]
  · have hwalk := runUntilError_cons .walk (i := .walk) (fun _ => rfl) hnil
    have hdeser := runUntilError_cons .deser (i := .deser) (fun _ => rfl) hwalk
    have hfrombytes := runUntilError_cons .frombytes (i := .frombytes) (fun _ => rfl) hdeser
    rw [runUntilError_cons .clear (i := .clear) (fun _ => rfl) hfrombytes]
    simp only [exec, execDecode, decodeStages, andThen_assoc, andThen_success_right]

/-! ## What a sequence leaves -/

/-- The stage of opcode `op` ended through the success exit, in a state with `P`. -/
def StageExit.SucceedsWith (x : StageExit) (op : BitVec 8) (P : State → Prop) : Prop :=
  ∃ t, x = .success t ∧ ReportsSuccess op t ∧ P t

/-- The stage of opcode `op` ended through the error entry with this report, in a state with `P`. -/
def StageExit.FailsWith (x : StageExit) (code : BitVec 4) (info : Word) (op : BitVec 8)
    (P : State → Prop) : Prop :=
  ∃ t, x = .error t ∧ ReportsError code info op t ∧ P t

/-- A stage that reports success ended through the success exit (R244, R245). -/
theorem succeedsWith_of_report {op op' : BitVec 8} {f : State → StageExit} (hf : IsStage op f) {s : State}
    {P : State → Prop} (h : ReportsSuccess op' (f s).state) (hP : P (f s).state) :
    (f s).SucceedsWith op' P := by
  refine ⟨(f s).state, ?_, h, hP⟩
  obtain ⟨hdone, -⟩ := h
  obtain ⟨u, hx | ⟨e, info, hx⟩, -, -⟩ := stage_ends hf s
  · rw [hx]; rfl
  · rw [hx] at hdone; cases hdone

/-- A stage that reports an error ended through the error entry (R244, R245). -/
theorem failsWith_of_report {op op' : BitVec 8} {f : State → StageExit} (hf : IsStage op f) {s : State}
    {code : BitVec 4} {info : Word} {P : State → Prop} (h : ReportsError code info op' (f s).state)
    (hP : P (f s).state) : (f s).FailsWith code info op' P := by
  refine ⟨(f s).state, ?_, h, hP⟩
  obtain ⟨hdone, -⟩ := h
  obtain ⟨u, hx | ⟨e, info, hx⟩, -, -⟩ := stage_ends hf s
  · rw [hx] at hdone; cases hdone
  · rw [hx]; rfl

section
variable {x : StageExit} {f : State → StageExit} {op op' : BitVec 8} {code : BitVec 4} {info : Word}
  {P Q : State → Prop}

/-- After a success the next stage runs. -/
theorem StageExit.SucceedsWith.andThen (h : x.SucceedsWith op P)
    (hf : ∀ t, P t → (f t).SucceedsWith op' Q) : (x.andThen f).SucceedsWith op' Q := by
  obtain ⟨t, rfl, -, ht⟩ := h
  exact hf t ht

theorem StageExit.SucceedsWith.andThen_fails (h : x.SucceedsWith op P)
    (hf : ∀ t, P t → (f t).FailsWith code info op' Q) : (x.andThen f).FailsWith code info op' Q := by
  obtain ⟨t, rfl, -, ht⟩ := h
  exact hf t ht

/-- After an error no further stage runs (R210). -/
theorem StageExit.FailsWith.andThen (h : x.FailsWith code info op P) :
    (x.andThen f).FailsWith code info op P := by
  obtain ⟨t, rfl, ht⟩ := h
  exact ⟨t, rfl, ht⟩

theorem StageExit.SucceedsWith.outcome (h : x.SucceedsWith op P) :
    ∃ t, x.outcome = .next t ∧ ReportsSuccess op t ∧ P t := by
  obtain ⟨t, rfl, ht⟩ := h
  exact ⟨t, rfl, ht⟩

theorem StageExit.FailsWith.outcome (h : x.FailsWith code info op P) :
    ∃ t, x.outcome = .next t ∧ ReportsError code info op t ∧ P t := by
  obtain ⟨t, rfl, ht⟩ := h
  exact ⟨t, rfl, ht⟩

end

/-! ## What the later stages keep (R79) -/

section
variable {s t u : State} {r : Bytes} {bits : Bits}

theorem KeepsInput.trans (hst : KeepsInput s t) (htu : KeepsInput t u) : KeepsInput s u := by
  obtain ⟨hibuf, hilen, hsel, hcmd, hcaps, hpending, hread, haccesses⟩ := hst
  obtain ⟨hibuf', hilen', hsel', hcmd', hcaps', hpending', hread', haccesses'⟩ := htu
  exact ⟨hibuf'.trans hibuf, hilen'.trans hilen, hsel'.trans hsel, hcmd'.trans hcmd,
    hcaps.trans hcaps', hpending'.trans hpending, hread'.trans hread, haccesses'.trans haccesses⟩

theorem KeepsInput.inputBytes (h : KeepsInput s t) : inputBytes t = inputBytes s := by
  obtain ⟨hibuf, hilen, -⟩ := h
  rw [Machine.inputBytes, hibuf, hilen, Machine.inputBytes]

theorem KeepsInput.obufCap (h : KeepsInput s t) : t.obufCap = s.obufCap := by
  obtain ⟨-, -, -, -, ⟨-, hobuf, -⟩, -⟩ := h
  exact hobuf

theorem KeepsInput.dbufCap (h : KeepsInput s t) : t.dbufCap = s.dbufCap := by
  obtain ⟨-, -, -, -, ⟨-, -, hdbuf⟩, -⟩ := h
  exact hdbuf

theorem KeepsInput.capsInRange (h : KeepsInput s t) (hcaps : CapsInRange s) : CapsInRange t := by
  obtain ⟨-, -, -, -, ⟨hibuf, hobuf, hdbuf⟩, -⟩ := h
  unfold CapsInRange
  rwa [hibuf, hobuf, hdbuf]

theorem HoldsRank.of_keeps (h : HoldsRank r s) (hkeeps : KeepsRank s t) : HoldsRank r t := by
  obtain ⟨hrank, hn, hvalid⟩ := hkeeps
  unfold HoldsRank rankList
  rwa [hrank, hn, hvalid]

theorem HoldsTree.of_keeps (h : HoldsTree r s) (hkeeps : KeepsTree s t) : HoldsTree r t := by
  obtain ⟨htsym, htn, hvalid⟩ := hkeeps
  unfold HoldsTree leafList
  rwa [htsym, htn, hvalid]

theorem HoldsTable.of_keeps (h : HoldsTable r s) (hkeeps : KeepsTable s t) : HoldsTable r t := by
  obtain ⟨hlen, hbits, hvalid⟩ := hkeeps
  unfold HoldsTable codeword
  rwa [hlen, hbits, hvalid]

theorem KeepsPacked.packedBytes (h : KeepsPacked s t) : packedBytes t = packedBytes s := by
  obtain ⟨hdbuf, hdlen, -⟩ := h
  rw [Machine.packedBytes, hdbuf, hdlen, Machine.packedBytes]

theorem KeepsTreeBytes.treeBytes (h : KeepsTreeBytes s t) : treeBytes t = treeBytes s := by
  obtain ⟨htbuf, htlen⟩ := h
  rw [Machine.treeBytes, htbuf, htlen, Machine.treeBytes]

theorem HoldsPacked.of_keeps (h : HoldsPacked bits s) (hkeeps : KeepsPacked s t) :
    HoldsPacked bits t := by
  have hbytes := hkeeps.packedBytes
  obtain ⟨-, hdlen, hpad⟩ := hkeeps
  unfold HoldsPacked
  rwa [hbytes, hdlen, hpad]

end

end Sys2Proof.Machine
end

section
/-! SUPPORT. The statements about ENCODE (47_composite.md R211 to R213): what holds after each of its
stages, for an input with the rank order `r`. -/
namespace Sys2Proof.Machine

/-! ## What holds between the stages of ENCODE -/

/-- CLEAR has emptied the buffers' lengths and nothing has been written since; the input is that of
`s`. -/
def Emptied (s t : State) : Prop :=
  t.tlen = 0 ∧ t.dlen = 0 ∧ t.pad = 0 ∧ t.olen = 0 ∧ KeepsInput s t

/-- What CLEAR leaves, and a RANK that fails after it (R228). -/
def Cleared (s t : State) : Prop :=
  RankInvalid t ∧ TreeInvalid t ∧ t.vCw = false ∧ Emptied s t

/-- What RANK leaves after CLEAR (R123). -/
def Ranked (s : State) (r : Bytes) (t : State) : Prop :=
  HoldsRank r t ∧ Emptied s t

/-- What BUILD leaves after RANK (R133). -/
def Built (s : State) (r : Bytes) (t : State) : Prop :=
  HoldsRank r t ∧ HoldsTree r t ∧ Emptied s t

/-- What DERIVE leaves after BUILD (R144). -/
def Derived (s : State) (r : Bytes) (t : State) : Prop :=
  HoldsRank r t ∧ HoldsTree r t ∧ HoldsTable r t ∧ Emptied s t

/-- What PACK leaves after DERIVE (R155). -/
def Packed (s : State) (r : Bytes) (bits : Bits) (t : State) : Prop :=
  HoldsRank r t ∧ HoldsTree r t ∧ HoldsTable r t ∧ HoldsPacked bits t ∧ t.tlen = 0 ∧ t.olen = 0 ∧
    KeepsInput s t

/-- What SER leaves after PACK, and a TOBYTES that fails after it (R167). -/
def Serialized (s : State) (r : Bytes) (bits : Bits) (t : State) : Prop :=
  HoldsRank r t ∧ HoldsTree r t ∧ HoldsTable r t ∧ HoldsPacked bits t ∧ t.tlen.toNat = 1 + r.length ∧
    treeBytes t = BitVec.ofNat 8 r.length :: r ∧ t.olen = 0 ∧ KeepsInput s t

/-- What TOBYTES leaves after SER (R182, R212). -/
def Encoded (s : State) (r : Bytes) (bits : Bits) (t : State) : Prop :=
  HoldsRank r t ∧ HoldsTree r t ∧ HoldsTable r t ∧ HoldsPacked bits t ∧ t.tlen.toNat = 1 + r.length ∧
    t.olen.toNat = 2 + r.length + t.dlen.toNat ∧
    outputBytes t = BitVec.ofNat 8 t.pad.toNat :: BitVec.ofNat 8 r.length :: (r ++ packedBytes t) ∧
    KeepsInput s t

section
variable {s t u : State} {r : Bytes}

/-- A stage that keeps the buffers and the input keeps them empty. -/
theorem Emptied.of_keeps (h : Emptied s t) (hinput : KeepsInput t u) (htree : KeepsTreeBytes t u)
    (hpacked : KeepsPacked t u) (houtput : KeepsOutput t u) : Emptied s u := by
  obtain ⟨htlen, hdlen, hpad, holen, hst⟩ := h
  obtain ⟨-, htlen'⟩ := htree
  obtain ⟨-, hdlen', hpad'⟩ := hpacked
  obtain ⟨-, holen'⟩ := houtput
  exact ⟨htlen'.trans htlen, hdlen'.trans hdlen, hpad'.trans hpad, holen'.trans holen, hst.trans hinput⟩

theorem Emptied.inputBytes (h : Emptied s t) : inputBytes t = inputBytes s := by
  obtain ⟨-, -, -, -, hinput⟩ := h
  exact hinput.inputBytes

/-! ## The stages of ENCODE, one after another -/

theorem clearStage_cleared (s : State) : (clearStage s).SucceedsWith 0x0C (Cleared s) :=
  ⟨_, rfl, ⟨rfl, rfl, rfl, rfl, rfl⟩, ⟨rfl, rfl⟩, ⟨rfl, rfl⟩, rfl, rfl, rfl, rfl, rfl,
    keepsInput_refl s⟩

theorem rankStage_of_cleared_nil (h : Cleared s t) (hnil : inputBytes s = []) :
    (rankStage t).FailsWith 1 0 0x01 (Cleared s) := by
  obtain ⟨-, -, -, hempty⟩ := h
  have hilen : t.ilen = 0 := (inputBytes_eq_nil_iff t).mp (hempty.inputBytes.trans hnil)
  obtain ⟨hreport, hinvalid⟩ := rankStage_error hilen
  obtain ⟨htree, hcw, hinput, htbuf, hdbuf, hobuf⟩ := rankStage_frame t
  exact failsWith_of_report .rank hreport
    ⟨hinvalid, htree, hcw, hempty.of_keeps hinput htbuf hdbuf hobuf⟩

/-- RANK after CLEAR finds the rank order and leaves the tree and the table invalid. -/
theorem rankStage_of_cleared (h : Cleared s t) (hne : inputBytes s ≠ [])
    (hrank : IsRankOrder (inputBytes s) r) : (rankStage t).SucceedsWith 0x01 (Ranked s r) := by
  obtain ⟨-, -, -, hempty⟩ := h
  have hilen : t.ilen ≠ 0 :=
    mt (inputBytes_eq_nil_iff t).mpr fun hnil => hne (hempty.inputBytes.symm.trans hnil)
  obtain ⟨hreport, r', hr', hholds⟩ := rankStage_success hilen
  obtain ⟨-, -, hinput, htbuf, hdbuf, hobuf⟩ := rankStage_frame t
  rw [hempty.inputBytes] at hr'
  obtain rfl := hrank.unique (isRankOrder_of_rankOrder hr')
  exact succeedsWith_of_report .rank hreport ⟨hholds, hempty.of_keeps hinput htbuf hdbuf hobuf⟩

theorem buildStage_of_ranked_one (h : Ranked s r t) (hr : r.length = 1) :
    (buildStage t).FailsWith 2 1 0x02 fun u =>
      HoldsRank r u ∧ u.n = 1 ∧ TreeInvalid u ∧ u.vCw = false ∧ Emptied s u := by
  obtain ⟨hholds, hempty⟩ := h
  obtain ⟨hcw, hkeeps, hinput, htbuf, hdbuf, hobuf⟩ := buildStage_frame t
  have hholds' := hholds.of_keeps hkeeps
  obtain ⟨hvalid, hn, -⟩ := hholds
  have ⟨_, hn', _⟩ := hholds'
  have hone : t.n.toNat = 1 := hn.trans hr
  obtain ⟨hreport, htree⟩ :=
    reportsError_raise_buildStart .insufficientSymbols (BitVec.ofNat 32 t.n.toNat) t
  rw [← buildStage_of_n_lt_two hvalid (by omega)] at hreport htree
  rw [hone] at hreport
  exact failsWith_of_report .build hreport
    ⟨hholds', BitVec.eq_of_toNat_eq (hn'.trans hr), htree, hcw,
      hempty.of_keeps hinput htbuf hdbuf hobuf⟩

theorem buildStage_of_ranked (h : Ranked s r t) (hr : 2 ≤ r.length) :
    (buildStage t).SucceedsWith 0x02 (Built s r) := by
  obtain ⟨hholds, hempty⟩ := h
  obtain ⟨-, hkeeps, hinput, htbuf, hdbuf, hobuf⟩ := buildStage_frame t
  have hholds' := hholds.of_keeps hkeeps
  obtain ⟨hvalid, hn, hlist⟩ := hholds
  obtain ⟨hreport, hleaves, htn, htree⟩ := buildStage_success hvalid (by omega)
  exact succeedsWith_of_report .build hreport
    ⟨hholds', ⟨htree, (congrArg BitVec.toNat htn).trans hn, hleaves.trans hlist⟩,
      hempty.of_keeps hinput htbuf hdbuf hobuf⟩

theorem deriveStage_of_built (h : Built s r t) (hr : 2 ≤ r.length) (hnodup : r.Nodup) :
    (deriveStage t).SucceedsWith 0x03 (Derived s r) := by
  obtain ⟨hrank, htree, hempty⟩ := h
  obtain ⟨hkeepsr, hkeepst, hinput, htbuf, hdbuf, hobuf⟩ := deriveStage_frame t
  have htree' := htree.of_keeps hkeepst
  obtain ⟨hvalid, -, rfl⟩ := htree
  obtain ⟨hreport, htable⟩ := deriveStage_success hvalid hr hnodup
  exact succeedsWith_of_report .derive hreport
    ⟨hrank.of_keeps hkeepsr, htree', htable, hempty.of_keeps hinput htbuf hdbuf hobuf⟩

/-- The table of the input's own rank order has a codeword for every byte of the input (R154). -/
theorem Derived.codeBits (h : Derived s r t) (hrank : IsRankOrder (inputBytes s) r) :
    codeBits (codeword t) (inputBytes t) = .ok (codedBits r (inputBytes s)) := by
  obtain ⟨-, -, ⟨-, htable⟩, hempty⟩ := h
  have hcode : codeword t = CodeTable.codeOf (chainEntries r) := funext htable
  rw [hcode, hempty.inputBytes, codeBits_chainEntries fun b hb => (hrank.mem_iff b).mpr hb]

theorem packStage_of_derived_overflow (h : Derived s r t) (hrank : IsRankOrder (inputBytes s) r)
    (hbig : s.dbufCap < ((codedBits r (inputBytes s)).length + 7) / 8) :
    (packStage t).FailsWith 8 0 0x04 (Derived s r) := by
  have hbits := h.codeBits hrank
  obtain ⟨hholds, htree, htable, htlen, -, -, holen, hst⟩ := h
  obtain ⟨hkeepsr, hkeepst, hkeepsc, hinput, ⟨-, htlen'⟩, -, holen'⟩ := packStage_frame t
  have hstage := packStage_of_codeBits_ok htable.1 hbits
  rw [if_pos (by rwa [hst.dbufCap, pack_length])] at hstage
  obtain ⟨hreport, hdlen, hpad, -⟩ := packStage_error hstage
  exact failsWith_of_report .pack hreport
    ⟨hholds.of_keeps hkeepsr, htree.of_keeps hkeepst, htable.of_keeps hkeepsc, htlen'.trans htlen,
      hdlen, hpad, holen'.trans holen, hst.trans hinput⟩

theorem packStage_of_derived (h : Derived s r t) (hrank : IsRankOrder (inputBytes s) r)
    (hcaps : CapsInRange s) (hfits : ((codedBits r (inputBytes s)).length + 7) / 8 ≤ s.dbufCap) :
    (packStage t).SucceedsWith 0x04 (Packed s r (codedBits r (inputBytes s))) := by
  have hbits := h.codeBits hrank
  obtain ⟨hholds, htree, htable, htlen, -, -, holen, hst⟩ := h
  obtain ⟨hkeepsr, hkeepst, hkeepsc, hinput, ⟨-, htlen'⟩, -, holen'⟩ := packStage_frame t
  obtain ⟨hreport, hpacked, -⟩ :=
    packStage_success htable.1 hbits (hst.capsInRange hcaps) (by rwa [hst.dbufCap])
  exact succeedsWith_of_report .pack hreport
    ⟨hholds.of_keeps hkeepsr, htree.of_keeps hkeepst, htable.of_keeps hkeepsc, hpacked,
      htlen'.trans htlen, holen'.trans holen, hst.trans hinput⟩

variable {bits : Bits}

theorem serStage_of_packed_overflow (h : Packed s r bits t) (hr : r.length = 256) :
    (serStage t).FailsWith 7 256 0x05 (Packed s r bits) := by
  obtain ⟨hholds, htree, htable, hpacked, -, holen, hst⟩ := h
  obtain ⟨hkeepsr, hkeepst, hkeepsc, hinput, hkeepsp, -, holen'⟩ := serStage_frame t
  have htree' := htree.of_keeps hkeepst
  obtain ⟨hvalid, htn, -⟩ := htree
  have hstage := serStage_of_tn_gt hvalid (by omega)
  rw [htn, hr] at hstage
  obtain ⟨hreport, htlen, -⟩ := serStage_error hstage
  exact failsWith_of_report .ser hreport
    ⟨hholds.of_keeps hkeepsr, htree', htable.of_keeps hkeepsc, hpacked.of_keeps hkeepsp, htlen,
      holen'.trans holen, hst.trans hinput⟩

theorem serStage_of_packed (h : Packed s r bits t) (hr : r.length ≤ 255) :
    (serStage t).SucceedsWith 0x05 (Serialized s r bits) := by
  obtain ⟨hholds, htree, htable, hpacked, -, holen, hst⟩ := h
  obtain ⟨hkeepsr, hkeepst, hkeepsc, hinput, hkeepsp, -, holen'⟩ := serStage_frame t
  have htree' := htree.of_keeps hkeepst
  obtain ⟨hvalid, htn, hleaves⟩ := htree
  obtain ⟨hreport, hbytes, htlen, -⟩ := serStage_success hvalid (by omega)
  rw [htn, hleaves] at hbytes
  rw [htn] at htlen
  exact succeedsWith_of_report .ser hreport
    ⟨hholds.of_keeps hkeepsr, htree', htable.of_keeps hkeepsc, hpacked.of_keeps hkeepsp, htlen,
      hbytes, holen'.trans holen, hst.trans hinput⟩

theorem tobytesStage_of_serialized_overflow (h : Serialized s r bits t)
    (hbig : s.obufCap < 2 + r.length + (bits.length + 7) / 8) :
    (tobytesStage t).FailsWith 8 0 0x07 (Serialized s r bits) := by
  obtain ⟨hholds, htree, htable, hpacked, htlen, hbytes, -, hst⟩ := h
  obtain ⟨hkeepsr, hkeepst, hkeepsc, hinput, hkeepsb, hkeepsp⟩ := tobytesStage_frame t
  have hpacked' := hpacked.of_keeps hkeepsp
  have hbytes' := hkeepsb.treeBytes.trans hbytes
  obtain ⟨-, hdlen, -⟩ := hpacked
  obtain ⟨hreport, holen, -⟩ := tobytesStage_error (s := t) (by rw [hst.obufCap]; omega)
  exact failsWith_of_report .tobytes hreport
    ⟨hholds.of_keeps hkeepsr, htree.of_keeps hkeepst, htable.of_keeps hkeepsc, hpacked',
      (congrArg BitVec.toNat hkeepsb.2).trans htlen, hbytes', holen, hst.trans hinput⟩

theorem tobytesStage_of_serialized (h : Serialized s r bits t) (hcaps : CapsInRange s)
    (hfits : 2 + r.length + (bits.length + 7) / 8 ≤ s.obufCap) :
    (tobytesStage t).SucceedsWith 0x07 (Encoded s r bits) := by
  obtain ⟨hholds, htree, htable, hpacked, htlen, hbytes, -, hst⟩ := h
  obtain ⟨hkeepsr, hkeepst, hkeepsc, hinput, ⟨-, htlen'⟩, hkeepsp⟩ := tobytesStage_frame t
  have hpacked' := hpacked.of_keeps hkeepsp
  have hdata := hkeepsp.packedBytes
  obtain ⟨-, hdlen', hpad'⟩ := hkeepsp
  obtain ⟨-, hdlen, -⟩ := hpacked
  obtain ⟨hreport, hout, holen, -⟩ :=
    tobytesStage_success (s := t) (hst.capsInRange hcaps) (by rw [hst.obufCap]; omega)
  rw [toBytes_heldContainer, hbytes, List.cons_append, ← hdata, ← hpad'] at hout
  rw [← hdlen', htlen] at holen
  exact succeedsWith_of_report .tobytes hreport
    ⟨hholds.of_keeps hkeepsr, htree.of_keeps hkeepst, htable.of_keeps hkeepsc, hpacked',
      (congrArg BitVec.toNat htlen').trans htlen, by omega, hout, hst.trans hinput⟩

/-! ## ENCODE up to the table, and whole -/

/-- The stages of ENCODE that make the table. -/
def tableStages (s : State) : StageExit :=
  (clearStage s)
    |>.andThen rankStage
    |>.andThen buildStage
    |>.andThen deriveStage

theorem encodeStages_eq (s : State) :
    encodeStages s = (((tableStages s).andThen packStage).andThen serStage).andThen tobytesStage := rfl

theorem IsRankOrder.ne_nil {buf : Bytes} (h : IsRankOrder buf r) (hr : 1 ≤ r.length) : buf ≠ [] := by
  rintro rfl
  have hmem := (h.mem_iff r[0]).mp (List.getElem_mem _)
  cases hmem

theorem IsRankOrder.eq_nil {buf : Bytes} (h : IsRankOrder buf r) (hr : r.length = 0) : buf = [] := by
  by_contra hne
  exact absurd (h.length_pos hne) (by omega)

theorem rankStage_after_clear (hrank : IsRankOrder (inputBytes s) r) (hr : 1 ≤ r.length) :
    ((clearStage s).andThen rankStage).SucceedsWith 0x01 (Ranked s r) :=
  (clearStage_cleared s).andThen fun _ h => rankStage_of_cleared h (hrank.ne_nil hr) hrank

theorem tableStages_derived (hrank : IsRankOrder (inputBytes s) r) (hr : 2 ≤ r.length) :
    (tableStages s).SucceedsWith 0x03 (Derived s r) := by
  have hbuilt := (rankStage_after_clear hrank (by omega)).andThen fun _ h => buildStage_of_ranked h hr
  exact hbuilt.andThen fun _ h => deriveStage_of_built h hr hrank.nodup

theorem packStage_after_table (hcaps : CapsInRange s) (hrank : IsRankOrder (inputBytes s) r)
    (hr : 2 ≤ r.length) (hfits : ((codedBits r (inputBytes s)).length + 7) / 8 ≤ s.dbufCap) :
    ((tableStages s).andThen packStage).SucceedsWith 0x04 (Packed s r (codedBits r (inputBytes s))) :=
  (tableStages_derived hrank hr).andThen fun _ h => packStage_of_derived h hrank hcaps hfits

/-- ENCODE of an input of 2 to 255 distinct byte values, with room for the data and the container
(R212). -/
theorem encodeStages_encoded (hcaps : CapsInRange s) (hrank : IsRankOrder (inputBytes s) r)
    (hmin : 2 ≤ r.length) (hmax : r.length ≤ 255)
    (hdbuf : ((codedBits r (inputBytes s)).length + 7) / 8 ≤ s.dbufCap)
    (hobuf : 2 + r.length + ((codedBits r (inputBytes s)).length + 7) / 8 ≤ s.obufCap) :
    (encodeStages s).SucceedsWith 0x07 (Encoded s r (codedBits r (inputBytes s))) := by
  have hpacked := packStage_after_table hcaps hrank hmin hdbuf
  have hserialized := hpacked.andThen fun _ h => serStage_of_packed h hmax
  rw [encodeStages_eq]
  exact hserialized.andThen fun _ h => tobytesStage_of_serialized h hcaps hobuf

end

/-- The container of R104 written out. -/
theorem toBytes_encodedContainer (r buf : Bytes) :
    toBytes (encodedContainer r buf) =
      BitVec.ofNat 8 (pack (codedBits r buf)).2 :: BitVec.ofNat 8 r.length ::
        (r ++ (pack (codedBits r buf)).1) := rfl

theorem Encoded.outputBytes {s t : State} {r : Bytes}
    (h : Encoded s r (codedBits r (inputBytes s)) t) :
    outputBytes t = toBytes (encodedContainer r (inputBytes s)) := by
  obtain ⟨-, -, -, ⟨hdata, -, hpad⟩, -, -, hout, -⟩ := h
  rw [hout, toBytes_encodedContainer, hdata, hpad, pack_padding]

/-- Settles O51: the conditions are those under which every stage succeeds, and what TOBYTES writes is
the container of `encode`. -/
theorem encodeLeavesTheContainer : Obligations.EncodeLeavesTheContainer := by
  intro s c r hcaps hc hr hobuf hdbuf
  have hrank := isRankOrder_of_rankOrder hr
  obtain ⟨hmin, hmax, rfl⟩ := encodeBuffer_ok hrank hc
  rw [toBytes_encodedContainer_length] at hobuf hdbuf
  obtain ⟨t, ht, hreport, hencoded⟩ :=
    (encodeStages_encoded hcaps hrank hmin hmax (by omega) hobuf).outcome
  have hc := hencoded.outputBytes
  obtain ⟨⟨hvr, hn, hlist⟩, ⟨hvt, htn, hleaves⟩, ⟨hvc, -⟩, -, htlen, holen, hout, hinput⟩ := hencoded
  exact ⟨t, ht, hreport, hc, hlist, hleaves, hn, htn, hvr, hvt, hvc, htlen, holen, hc.symm.trans hout,
    hinput⟩

/-- Settles O52: in each row the stages before the failing one succeed, and it fails on what they left. -/
theorem encodeReportsItsFailures : Obligations.EncodeReportsItsFailures := by
  rintro s r bits size hcaps hrank rfl rfl
  refine ⟨fun hr => ?_, fun hr => ?_, fun hr hbig => ?_, fun hr hfits => ?_,
    fun hmin hmax hfits hbig => ?_⟩
  · have hfails := (clearStage_cleared s).andThen_fails fun _ h =>
      rankStage_of_cleared_nil h (hrank.eq_nil hr)
    exact hfails.andThen.andThen.andThen.andThen.andThen.outcome
  · have hfails := (rankStage_after_clear hrank hr.ge).andThen_fails fun _ h =>
      buildStage_of_ranked_one h hr
    exact hfails.andThen.andThen.andThen.andThen.outcome
  · have hfails := (tableStages_derived hrank hr).andThen_fails fun _ h =>
      packStage_of_derived_overflow h hrank hbig
    exact hfails.andThen.andThen.outcome
  · have hfails := (packStage_after_table hcaps hrank (by omega) hfits).andThen_fails fun _ h =>
      serStage_of_packed_overflow h hr
    exact hfails.andThen.outcome
  · have hserialized := (packStage_after_table hcaps hrank hmin hfits).andThen fun _ h =>
      serStage_of_packed h hmax
    have hfails := hserialized.andThen_fails fun _ h => tobytesStage_of_serialized_overflow h hbig
    exact hfails.outcome

end Sys2Proof.Machine
end

section
/-! SUPPORT. The statements about DECODE (47_composite.md R215 to R217): what holds after each of its
stages, for an input that parses as the container `c`. -/
namespace Sys2Proof.Machine

/-! ## What holds between the stages of DECODE -/

/-- There is no output, and the input is that of `s`: what every failing DECODE leaves (R217). -/
def NoOutput (s t : State) : Prop := t.olen = 0 ∧ KeepsInput s t

/-- What FROMBYTES leaves after CLEAR (R185). -/
def Parsed (s : State) (c : Container) (t : State) : Prop := HoldsContainer c t ∧ NoOutput s t

/-- What DESER leaves after FROMBYTES, for a container whose symbols are `syms` (R171). -/
def Rebuilt (s : State) (c : Container) (syms : Bytes) (t : State) : Prop :=
  HoldsRank syms t ∧ HoldsTree syms t ∧ t.vCw = false ∧ Parsed s c t

/-- What WALK leaves after DESER (R198, R216). -/
def Decoded (s : State) (c : Container) (syms out : Bytes) (t : State) : Prop :=
  HoldsRank syms t ∧ HoldsTree syms t ∧ t.vCw = false ∧ HoldsContainer c t ∧ outputBytes t = out ∧
    KeepsInput s t

/-- The walk of the data of `c` in the chain of `syms` (R216). -/
def containerWalk (c : Container) (syms : Bytes) : Bytes × Nat :=
  walk syms (unpack c.packedData (8 * c.packedData.length - c.padding.toNat))

/-- The failures of WALK after DESER on the data of `c`, whose walk gives `out` and ends at `level`, in the
order of R217. -/
def WalkFailure (s : State) (c : Container) (out : Bytes) (level : Nat) (code : BitVec 4)
    (info : Word) : Prop :=
  8 * c.packedData.length < c.padding.toNat ∧ code = 4 ∧ info = 4 ∨
    c.padding.toNat ≤ 8 * c.packedData.length ∧ level ≠ 0 ∧ code = 5 ∧
      info = BitVec.ofNat 32 level ∨
    c.padding.toNat ≤ 8 * c.packedData.length ∧ level = 0 ∧ s.obufCap < out.length ∧ code = 8 ∧
      info = 0

section
variable {s t u : State} {c : Container} {p sc : Byte} {rest syms out : Bytes} {level : Nat}
  {code : BitVec 4} {info : Word}

theorem NoOutput.of_keeps (h : NoOutput s t) (holen : u.olen = t.olen) (hinput : KeepsInput t u) :
    NoOutput s u := by
  obtain ⟨holen', hst⟩ := h
  exact ⟨holen.trans holen', hst.trans hinput⟩

theorem HoldsContainer.of_keeps (h : HoldsContainer c t) (htree : KeepsTreeBytes t u)
    (hpacked : KeepsPacked t u) : HoldsContainer c u := by
  have hbytes := htree.treeBytes
  have hdata := hpacked.packedBytes
  obtain ⟨-, htlen⟩ := htree
  obtain ⟨-, hdlen, hpad⟩ := hpacked
  unfold HoldsContainer
  rwa [hpad, hbytes, hdata, htlen, hdlen]

/-! ## The stages of DECODE, one after another -/

theorem clearStage_noOutput (s : State) : (clearStage s).SucceedsWith 0x0C (NoOutput s) :=
  ⟨_, rfl, ⟨rfl, rfl, rfl, rfl, rfl⟩, rfl, keepsInput_refl s⟩

theorem frombytesStage_of_noOutput_fails (h : NoOutput s t) {f : Failure}
    (hstage : frombytesStage t = frombytesFail f t) :
    (frombytesStage t).FailsWith f.kind.code f.info 0x08 (NoOutput s) := by
  obtain ⟨-, -, -, hinput, -, holen⟩ := frombytesStage_frame t
  obtain ⟨hreport, -⟩ := frombytesStage_error hstage
  exact failsWith_of_report .frombytes hreport (h.of_keeps holen hinput)

theorem frombytesStage_of_noOutput (h : NoOutput s t) (hc : fromBytes (inputBytes s) = .ok c)
    (hfits : c.packedData.length ≤ s.dbufCap) : (frombytesStage t).SucceedsWith 0x08 (Parsed s c) := by
  obtain ⟨-, -, -, hinput, -, holen⟩ := frombytesStage_frame t
  have ⟨_, hst⟩ := h
  rw [← hst.inputBytes] at hc
  rw [← hst.dbufCap] at hfits
  obtain ⟨hreport, hholds, -⟩ := frombytesStage_success hc hfits
  exact succeedsWith_of_report .frombytes hreport ⟨hholds, h.of_keeps holen hinput⟩

theorem Parsed.treeBytes (h : Parsed s c t) (htree : c.serializedTree = sc :: syms)
    (hsyms : syms.length = sc.toNat) : treeBytes t = sc :: syms ∧ 1 + sc.toNat ≤ t.tlen.toNat := by
  obtain ⟨⟨-, hbytes, -, htlen, -⟩, -⟩ := h
  rw [htree] at hbytes htlen
  rw [List.length_cons] at htlen
  exact ⟨hbytes, by omega⟩

theorem deserStage_of_parsed_fails (h : Parsed s c t) (htree : c.serializedTree = sc :: syms)
    (hsyms : syms.length = sc.toNat) (hsc : sc.toNat < 2) :
    (deserStage t).FailsWith 2 (BitVec.ofNat 32 sc.toNat) 0x06 (NoOutput s) := by
  obtain ⟨hbytes, hlen⟩ := h.treeBytes htree hsyms
  obtain ⟨-, hout⟩ := h
  obtain ⟨-, hinput, -, -, -, holen⟩ := deserStage_frame t
  obtain ⟨hreport, -⟩ := deserStage_insufficient hbytes hlen hsc
  exact failsWith_of_report .deser hreport (hout.of_keeps holen hinput)

theorem deserStage_of_parsed (h : Parsed s c t) (htree : c.serializedTree = sc :: syms)
    (hsyms : syms.length = sc.toNat) (hsc : 2 ≤ sc.toNat) :
    (deserStage t).SucceedsWith 0x06 (Rebuilt s c syms) := by
  obtain ⟨hbytes, hlen⟩ := h.treeBytes htree hsyms
  obtain ⟨hholds, hout⟩ := h
  obtain ⟨hcw, hinput, hkeepsb, hkeepsp, -, holen⟩ := deserStage_frame t
  obtain ⟨hreport, hrank, htree⟩ := deserStage_success hbytes hlen hsc
  rw [List.take_of_length_le hsyms.le] at hrank htree
  exact succeedsWith_of_report .deser hreport
    ⟨hrank, htree, hcw, hholds.of_keeps hkeepsb hkeepsp, hout.of_keeps holen hinput⟩

/-- WALK reads the container's data bits and its tree (R195, R216). -/
theorem Rebuilt.walk_eq (h : Rebuilt s c syms t) :
    walk (leafList t) (dataBits t) = containerWalk c syms := by
  obtain ⟨-, ⟨-, -, hleaves⟩, -, ⟨hpad, -, hdata, -, hdlen⟩, -⟩ := h
  rw [dataBits, hleaves, hdata, hdlen, hpad, containerWalk]

theorem walkStage_of_rebuilt_fails (h : Rebuilt s c syms t) (hwalk : containerWalk c syms = (out, level))
    (hcase : WalkFailure s c out level code info) :
    (walkStage t).FailsWith code info 0x09 (NoOutput s) := by
  have hwalk' := h.walk_eq.trans hwalk
  obtain ⟨-, ⟨hvalid, -⟩, -, ⟨hpad, -, -, -, hdlen⟩, -, hst⟩ := h
  rw [WalkFailure, ← hpad, ← hdlen, ← hst.obufCap] at hcase
  obtain ⟨-, -, -, hinput, -⟩ := walkStage_frame t
  obtain ⟨e, hstage, rfl⟩ := walkStage_fails hwalk' (.inr (by simpa only [hvalid, true_and] using hcase))
  obtain ⟨hreport, holen, -⟩ := walkStage_error hstage
  exact failsWith_of_report .walk hreport ⟨holen, hst.trans hinput⟩

theorem walkStage_of_rebuilt (h : Rebuilt s c syms t) (hcaps : CapsInRange s)
    (hpad : c.padding.toNat ≤ 8 * c.packedData.length) (hwalk : containerWalk c syms = (out, 0))
    (hfits : out.length ≤ s.obufCap) : (walkStage t).SucceedsWith 0x09 (Decoded s c syms out) := by
  have hwalk' := h.walk_eq.trans hwalk
  obtain ⟨hrank, htree, hcw, hholds, -, hst⟩ := h
  obtain ⟨hkeepsr, hkeepst, ⟨-, -, hcw'⟩, hinput, hkeepsb, hkeepsp⟩ := walkStage_frame t
  have ⟨hvalid, _, _⟩ := htree
  have ⟨hpad', _, _, _, hdlen⟩ := hholds
  obtain ⟨hreport, hout, -⟩ :=
    walkStage_success hvalid (by omega) hwalk' (hst.capsInRange hcaps) (by rwa [hst.obufCap])
  exact succeedsWith_of_report .walk hreport
    ⟨hrank.of_keeps hkeepsr, htree.of_keeps hkeepst, hcw'.trans hcw, hholds.of_keeps hkeepsb hkeepsp,
      hout, hst.trans hinput⟩

/-! ## DECODE stage by stage -/

theorem frombytesStage_after_clear (hc : fromBytes (inputBytes s) = .ok c)
    (hfits : c.packedData.length ≤ s.dbufCap) :
    ((clearStage s).andThen frombytesStage).SucceedsWith 0x08 (Parsed s c) :=
  (clearStage_noOutput s).andThen fun _ h => frombytesStage_of_noOutput h hc hfits

theorem deserStage_after_parse (hc : fromBytes (inputBytes s) = .ok c)
    (hfits : c.packedData.length ≤ s.dbufCap) (htree : c.serializedTree = sc :: syms)
    (hsyms : syms.length = sc.toNat) (hsc : 2 ≤ sc.toNat) :
    (((clearStage s).andThen frombytesStage).andThen deserStage).SucceedsWith 0x06
      (Rebuilt s c syms) :=
  (frombytesStage_after_clear hc hfits).andThen fun _ h => deserStage_of_parsed h htree hsyms hsc

/-- DECODE of an input that FROMBYTES refuses. -/
theorem decodeStages_of_frombytes_fails
    (hstage : ∀ t, KeepsInput s t →
      ∃ f : Failure, frombytesStage t = frombytesFail f t ∧ f.kind.code = code ∧ f.info = info) :
    (decodeStages s).FailsWith code info 0x08 (NoOutput s) := by
  have hstep : ∀ t, NoOutput s t → (frombytesStage t).FailsWith code info 0x08 (NoOutput s) := by
    intro t h
    have ⟨_, hst⟩ := h
    obtain ⟨f, hf, rfl, rfl⟩ := hstage t hst
    exact frombytesStage_of_noOutput_fails h hf
  exact ((clearStage_noOutput s).andThen_fails hstep).andThen.andThen

theorem decodeStages_of_short_input (hshort : s.ilen.toNat < 2) :
    (decodeStages s).FailsWith 4 1 0x08 (NoOutput s) := by
  refine decodeStages_of_frombytes_fails fun t hst =>
    ⟨⟨.malformedContainer, 1⟩, frombytesStage_of_error ?_, rfl, rfl⟩
  rw [hst.inputBytes, fromBytes_of_length_lt_two ((inputBytes_length s).trans_lt hshort)]

/-- The failures of FROMBYTES inside DECODE, in the order of R217. -/
theorem decodeStages_of_bad_container (hbuf : inputBytes s = p :: sc :: rest)
    (hcase : rest.length < sc.toNat ∧ code = 4 ∧ info = 2 ∨
      sc.toNat ≤ rest.length ∧ 7 < p.toNat ∧ code = 4 ∧ info = 3 ∨
      sc.toNat ≤ rest.length ∧ p.toNat ≤ 7 ∧ s.dbufCap < (rest.drop sc.toNat).length ∧ code = 8 ∧
        info = 0) :
    (decodeStages s).FailsWith code info 0x08 (NoOutput s) := by
  refine decodeStages_of_frombytes_fails fun t hst => ?_
  have hin := hst.inputBytes.trans hbuf
  have hilen := ilen_of_inputBytes hin
  rw [← hst.dbufCap, List.length_drop] at hcase
  refine frombytesStage_fails hin ?_
  rcases hcase with ⟨hlong, hreport⟩ | ⟨hcount, hp, hreport⟩ | ⟨hcount, hp, hbig, hreport⟩
  · exact .inl ⟨by omega, hreport⟩
  · exact .inr (.inl ⟨by omega, hp, hreport⟩)
  · exact .inr (.inr ⟨by omega, hp, by omega, hreport⟩)

/-- DECODE of a container that declares fewer than two symbols. -/
theorem decodeStages_of_deser_fails (hc : fromBytes (inputBytes s) = .ok c)
    (hfits : c.packedData.length ≤ s.dbufCap) (htree : c.serializedTree = sc :: syms)
    (hsyms : syms.length = sc.toNat) (hsc : sc.toNat < 2) :
    (decodeStages s).FailsWith 2 (BitVec.ofNat 32 sc.toNat) 0x06 (NoOutput s) := by
  have hfails := (frombytesStage_after_clear hc hfits).andThen_fails fun _ h =>
    deserStage_of_parsed_fails h htree hsyms hsc
  exact hfails.andThen

/-- DECODE of a container with a tree, up to the failures of WALK. -/
theorem decodeStages_of_walk_fails (hc : fromBytes (inputBytes s) = .ok c)
    (hfits : c.packedData.length ≤ s.dbufCap) (htree : c.serializedTree = sc :: syms)
    (hsyms : syms.length = sc.toNat) (hsc : 2 ≤ sc.toNat) (hwalk : containerWalk c syms = (out, level))
    (hcase : WalkFailure s c out level code info) :
    (decodeStages s).FailsWith code info 0x09 (NoOutput s) :=
  (deserStage_after_parse hc hfits htree hsyms hsc).andThen_fails fun _ h =>
    walkStage_of_rebuilt_fails h hwalk hcase

/-- DECODE of a container with a tree and with room for its data and its output (R216). -/
theorem decodeStages_decoded (hcaps : CapsInRange s) (hc : fromBytes (inputBytes s) = .ok c)
    (hdbuf : c.packedData.length ≤ s.dbufCap) (htree : c.serializedTree = sc :: syms)
    (hsyms : syms.length = sc.toNat) (hsc : 2 ≤ sc.toNat)
    (hpad : c.padding.toNat ≤ 8 * c.packedData.length) (hwalk : containerWalk c syms = (out, 0))
    (hobuf : out.length ≤ s.obufCap) : (decodeStages s).SucceedsWith 0x09 (Decoded s c syms out) :=
  (deserStage_after_parse hc hdbuf htree hsyms hsc).andThen fun _ h =>
    walkStage_of_rebuilt h hcaps hpad hwalk hobuf

end

/-! ## The function `decode` (R216) -/

/-- `decode` of a buffer that parses goes by the tree, the padding and the walk. -/
theorem decodeContainer_of_fromBytes {buf : Bytes} {c : Container} {t : CodeTree}
    (hc : fromBytes buf = .ok c) (ht : deserializeTree c.serializedTree = .ok t) :
    decodeContainer buf =
      if 8 * c.packedData.length < c.padding.toNat then .error ⟨.malformedContainer, 4⟩
      else if (containerWalk c (leaves t)).2 ≠ 0 then
        .error ⟨.truncatedBitstream, BitVec.ofNat 32 (containerWalk c (leaves t)).2⟩
      else .ok (containerWalk c (leaves t)).1 := by
  simp only [decodeContainer, bind, Except.bind, hc, ht]
  rfl

/-- `decode` succeeds only with two or more symbols, a legal padding and a walk that ends at the
root. -/
theorem decodeContainer_ok {buf out : Bytes} {c : Container} (hc : fromBytes buf = .ok c)
    (h : decodeContainer buf = .ok out) :
    ∃ sc syms, c.serializedTree = sc :: syms ∧ syms.length = sc.toNat ∧ 2 ≤ sc.toNat ∧
      c.padding.toNat ≤ 8 * c.packedData.length ∧ containerWalk c syms = (out, 0) := by
  obtain ⟨sc, rest, -, hcount, -, htree, -⟩ := fromBytes_ok hc
  have hsyms : (rest.take sc.toNat).length = sc.toNat := List.length_take_of_le hcount
  have hdeser : deserializeTree c.serializedTree = buildTree (rest.take sc.toNat) := by
    rw [htree, deserializeTree_of_count_le hsyms.ge, List.take_of_length_le hsyms.le]
  have hsc : 2 ≤ sc.toNat := by
    by_contra hlt
    rw [buildTree_of_lt_two (by omega)] at hdeser
    simp only [decodeContainer, bind, Except.bind, hc, hdeser] at h
    cases h
  obtain ⟨t, ht, hleaves⟩ := buildTree_of_two_le (hsyms.ge.trans' hsc)
  rw [decodeContainer_of_fromBytes hc (hdeser.trans ht), hleaves] at h
  split_ifs at h with hpad hlevel
  cases h
  exact ⟨sc, _, htree, hsyms, hsc, not_lt.mp hpad, Prod.ext rfl (not_not.mp hlevel)⟩

/-- Settles O53: `decode` succeeds under the conditions under which every stage does. -/
theorem decodeLeavesTheOutput : Obligations.DecodeLeavesTheOutput := by
  intro s c out hcaps hout hc hdbuf hobuf
  obtain ⟨sc, syms, htree, hsyms, hsc, hpad, hwalk⟩ := decodeContainer_ok hc hout
  obtain ⟨t, ht, hreport, ⟨hvr, -⟩, ⟨hvt, -, hleaves⟩, hvc, ⟨hp, hbytes, hdata, -⟩, hbuf, hinput⟩ :=
    (decodeStages_decoded hcaps hc hdbuf htree hsyms hsc hpad hwalk hobuf).outcome
  exact ⟨t, ht, hreport, hbuf, hvr, hvt, hvc, hp, hbytes, hdata, by rw [hleaves, htree, List.tail_cons],
    hinput⟩

/-- Settles O54: FROMBYTES refuses the input, or it parses and one of the later stages fails on what the
stages before it left. -/
theorem decodeReportsItsFailures : Obligations.DecodeReportsItsFailures := by
  refine fun s => ⟨fun hshort => (decodeStages_of_short_input hshort).outcome, ?_⟩
  rintro p sc rest syms data out level code info op hbuf rfl rfl hwalk hcase
  have hsyms : sc.toNat ≤ rest.length → (rest.take sc.toNat).length = sc.toNat :=
    List.length_take_of_le
  have hparse := fun hcount hp =>
    (congrArg fromBytes hbuf).trans (fromBytes_of_legal (p := p) (sc := sc) (rest := rest) hcount hp)
  rcases hcase with ⟨hlong, hcode, hinfo, rfl⟩ | ⟨hcount, hp, hcode, hinfo, rfl⟩ |
    ⟨hcount, hp, hbig, hcode, hinfo, rfl⟩ | ⟨hcount, hp, hfits, hsc, rfl, rfl, rfl⟩ |
    ⟨hcount, hp, hfits, hsc, hnil, hpos, hcode, hinfo, rfl⟩ |
    ⟨hcount, hp, hfits, hsc, hpad, hlevel, hcode, hinfo, rfl⟩ |
    ⟨hcount, hp, hfits, hsc, hpad, hlevel, hbig, hcode, hinfo, rfl⟩
  · exact (decodeStages_of_bad_container hbuf (.inl ⟨hlong, hcode, hinfo⟩)).outcome
  · exact (decodeStages_of_bad_container hbuf (.inr (.inl ⟨hcount, hp, hcode, hinfo⟩))).outcome
  · exact (decodeStages_of_bad_container hbuf (.inr (.inr ⟨hcount, hp, hbig, hcode, hinfo⟩))).outcome
  · exact (decodeStages_of_deser_fails (hparse hcount hp) hfits rfl (hsyms hcount) hsc).outcome
  · have hpad : 8 * (rest.drop sc.toNat).length < p.toNat := by rwa [hnil]
    exact (decodeStages_of_walk_fails (hparse hcount hp) hfits rfl (hsyms hcount) hsc hwalk
      (.inl ⟨hpad, hcode, hinfo⟩)).outcome
  · exact (decodeStages_of_walk_fails (hparse hcount hp) hfits rfl (hsyms hcount) hsc hwalk
      (.inr (.inl ⟨hpad, hlevel, hcode, hinfo⟩))).outcome
  · exact (decodeStages_of_walk_fails (hparse hcount hp) hfits rfl (hsyms hcount) hsc hwalk
      (.inr (.inr ⟨hpad, hlevel, hbig, hcode, hinfo⟩))).outcome

end Sys2Proof.Machine
end

section
/-! SUPPORT. The round trip (47_composite.md R218): each function of `decode` undoes one of `encode`, and
the machine's ENCODE and DECODE are these functions. -/
namespace Sys2Proof.Machine

/-! ## The functions -/

/-- The container that `encode` makes parses to its parts: its padding is legal and its count byte counts
the symbols (R186). -/
theorem fromBytes_encodedContainer {r : Bytes} (hr : r.length ≤ 255) (buf : Bytes) :
    fromBytes (toBytes (encodedContainer r buf)) = .ok (encodedContainer r buf) := by
  refine fromBytesUndoesToBytes _ _ r _ ?_ (toNat_countByte hr).symm
  have hpad := pack_padding (codedBits r buf)
  rw [toNat_countByte (by omega)]
  omega

theorem encodedContainer_padding (r buf : Bytes) :
    (encodedContainer r buf).padding.toNat = (pack (codedBits r buf)).2 := by
  have hpad := pack_padding (codedBits r buf)
  exact toNat_countByte (by omega)

/-- The data of the container walks back to the buffer: `unpack` undoes `pack`, and the walk the coder
(R153, R200). -/
theorem containerWalk_encodedContainer {r buf : Bytes} (hrank : IsRankOrder buf r) (hr : 2 ≤ r.length) :
    containerWalk (encodedContainer r buf) r = (buf, 0) := by
  rw [containerWalk, encodedContainer_padding]
  exact (congrArg (walk r) (unpackUndoesPack (codedBits r buf))).trans
    (walk_codedBits hr hrank.nodup fun b hb => (hrank.mem_iff b).mpr hb)

theorem decodeContainer_encodedContainer {r buf : Bytes} (hrank : IsRankOrder buf r)
    (hmin : 2 ≤ r.length) (hmax : r.length ≤ 255) :
    decodeContainer (toBytes (encodedContainer r buf)) = .ok buf := by
  obtain ⟨t, ht, rfl⟩ := buildTree_of_two_le hmin
  have hcount := toNat_countByte hmax
  have hdeser : deserializeTree (encodedContainer (leaves t) buf).serializedTree = .ok t := by
    rw [encodedContainer, deserializeTree_of_count_le hcount.le, hcount, List.take_length, ht]
  have hpad : ¬ 8 * (encodedContainer (leaves t) buf).packedData.length <
      (encodedContainer (leaves t) buf).padding.toNat := by
    rw [encodedContainer_padding, pack_padding, encodedContainer, pack_length]
    omega
  rw [decodeContainer_of_fromBytes (fromBytes_encodedContainer hmax buf) hdeser, if_neg hpad,
    containerWalk_encodedContainer hrank hmin, if_neg (not_not.mpr rfl)]

/-- Settles O56: `encode` answers the container of R104, which decodes to the buffer. -/
theorem decodeUndoesEncode : Obligations.DecodeUndoesEncode := by
  intro buf r hrank hmin hmax
  refine ⟨toBytes (encodedContainer r buf), ?_, decodeContainer_encodedContainer hrank hmin hmax⟩
  rw [encodeBuffer_of_two_le hrank hmin, if_neg hmax.not_gt]

/-! ## The machine -/

theorem exists_isRankOrder (buf : Bytes) : ∃ r, IsRankOrder buf r := by
  by_cases hnil : buf = []
  · exact ⟨[], by simp [hnil], .nil⟩
  · obtain ⟨r, hr⟩ := rankOrder_of_ne_nil hnil
    exact ⟨r, isRankOrder_of_rankOrder hr⟩

/-- A command that reports an error does not set DONE (R245). -/
theorem not_done_of_fails {s t : State} {i : Instr} {code : BitVec 4} {info : Word} {op : BitVec 8}
    {P : State → Prop} (hexec : exec i s = .next t)
    (h : ∃ u, exec i s = .next u ∧ ReportsError code info op u ∧ P u) : t.statusDone ≠ true := by
  obtain ⟨u, hu, ⟨hdone, -⟩, -⟩ := h
  obtain rfl : t = u := Host.Outcome.next.inj (hexec.symm.trans hu)
  simp [hdone]

/-- ENCODE sets DONE only under the conditions of R212: every other case is a row of R213. -/
theorem encode_conditions_of_done {s t : State} {r : Bytes} (hcaps : CapsInRange s)
    (hrank : IsRankOrder (inputBytes s) r) (hexec : exec .encode s = .next t)
    (hdone : t.statusDone = true) :
    2 ≤ r.length ∧ r.length ≤ 255 ∧ ((codedBits r (inputBytes s)).length + 7) / 8 ≤ s.dbufCap ∧
      2 + r.length + ((codedBits r (inputBytes s)).length + 7) / 8 ≤ s.obufCap := by
  obtain ⟨hempty, hone, hdbuf, hall, hobuf⟩ := encodeReportsItsFailures s r _ _ hcaps hrank rfl rfl
  have hne0 : r.length ≠ 0 := fun h => not_done_of_fails hexec (hempty h) hdone
  have hne1 : r.length ≠ 1 := fun h => not_done_of_fails hexec (hone h) hdone
  have hmin : 2 ≤ r.length := by omega
  have hfits := not_lt.mp fun h => not_done_of_fails hexec (hdbuf hmin h) hdone
  have hne256 : r.length ≠ 256 := fun h => not_done_of_fails hexec (hall h hfits) hdone
  have hle : r.length ≤ 256 := rankOrder_length_le (hrank.rankOrder_eq (hrank.ne_nil (by omega)))
  have hmax : r.length ≤ 255 := by omega
  exact ⟨hmin, hmax, hfits,
    not_lt.mp fun h => not_done_of_fails hexec (hobuf hmin hmax hfits h) hdone⟩

/-- Settles O57: a successful ENCODE wrote the container of `encode`, whose parts fit as its own did. -/
theorem decodeAfterEncodeRestoresTheInput : Obligations.DecodeAfterEncodeRestoresTheInput := by
  intro s t t' hcaps hencode hdone hmove hcaps' hdbuf hobuf
  obtain ⟨r, hrank⟩ := exists_isRankOrder (inputBytes s)
  obtain ⟨hmin, hmax, hfitsd, hfitso⟩ := encode_conditions_of_done hcaps hrank hencode hdone
  obtain ⟨u, hu, -, hencoded⟩ :=
    (encodeStages_encoded hcaps hrank hmin hmax hfitsd hfitso).outcome
  obtain rfl : t = u := Host.Outcome.next.inj (hencode.symm.trans hu)
  have hin := hmove.trans hencoded.outputBytes
  obtain ⟨-, -, -, ⟨-, hdlen, -⟩, -⟩ := hencoded
  have hparse := fromBytes_encodedContainer hmax (inputBytes s)
  have hdecode := decodeContainer_encodedContainer hrank hmin hmax
  rw [← hin] at hparse hdecode
  have hdata : (encodedContainer r (inputBytes s)).packedData.length ≤ t'.dbufCap :=
    ((pack_length _).trans hdlen.symm).trans_le hdbuf
  obtain ⟨v, hv, ⟨hdone', -⟩, hout, -⟩ :=
    decodeLeavesTheOutput t' _ _ hcaps' hdecode hparse hdata hobuf
  exact ⟨v, hv, hdone', hout⟩

end Sys2Proof.Machine
end

section
/-! SUPPORT. The system commands and the two ends of a command (48_system.md R226 to R228, 60_exceptions.md
R241 to R250), every kind of reset and the first command after it (70_reset_and_hazards.md R270 to R272). -/
namespace Sys2Proof.Machine

/-! ## The two ends of a stage (R241, R244, R245) -/

/-- Settles O22: one row of the table of R241 after the other. -/
theorem errorKindsHaveTheirCodes : Obligations.ErrorKindsHaveTheirCodes :=
  ⟨rfl, rfl, rfl, rfl, rfl, rfl, rfl, rfl, rfl, rfl, rfl⟩

/-- Settles O23: what each exit writes is in its definition, and a sequence of stages stops at an error. -/
theorem exitsWriteOnlyTheReport : Obligations.ExitsWriteOnlyTheReport := fun s e info next =>
  ⟨succeed_outcome s, raise_outcome e info s, congrArg StageExit.outcome (andThen_raise e info s next)⟩

/-! ## Steps without a command (R272, R250) -/

theorem step_of_idle {s : State} (h : s.pending = []) : step s = .next s := by
  rcases step_cases s with ⟨-, hstep⟩ | ⟨e, rest, hcons, -⟩
  · exact hstep
  · rw [h] at hcons
    cases hcons

/-- Settles O6: the case of a step with nothing pending. -/
theorem stepWithNothingPendingKeepsTheState : Obligations.StepWithNothingPendingKeepsTheState :=
  fun _ => step_of_idle

theorem writeCommand_of_decode_error {s : State} {w : Word} {r : DecodeReject} (h : decode w = .error r) :
    writeCommand s w = .next (State.reportError { s with lastCmd := w } .illegalCommand w) := by
  simp only [writeCommand, h, raise_outcome]

/-- Settles O5: the words of R94 are those that `decode` refuses, and a refused word goes to the error
entry. -/
theorem illegalWordIsReportedAndChangesNothingElse :
    Obligations.IllegalWordIsReportedAndChangesNothingElse := by
  intro s rest w hpending hillegal
  obtain ⟨-, hrefused⟩ := onlyTheFourteenWordsAreCommands w
  obtain ⟨r, hr⟩ := hrefused.mpr hillegal
  exact (step_of_write (r := 0) hpending).trans (writeCommand_of_decode_error hr)

/-! ## NOP and CLEAR (R226, R228) -/

/-- Settles O26: the word 0 is NOP's. -/
theorem nopChangesOnlyLastCommand : Obligations.NopChangesOnlyLastCommand := fun s =>
  ⟨rfl, fun rest hpending =>
    stepRunsTheDecodedCommand s rest 0 .nop hpending (encodedCommandDecodesToItself .nop)⟩

/-- Settles O27: what CLEAR leaves for ENCODE, and the three buffers that it empties. -/
theorem clearInvalidatesEveryDerivedValue : Obligations.ClearInvalidatesEveryDerivedValue := by
  intro s
  obtain ⟨t, ht, hreport, hrank, htree, hcw, htlen, hdlen, hpad, holen, hinput⟩ := clearStage_cleared s
  obtain rfl : (clearedState s).reportSuccess = t := StageExit.success.inj ht
  exact ⟨_, rfl, hreport, hrank, htree, hcw, htlen, hdlen, hpad, holen, forget_read? s.tbuf,
    forget_read? s.dbuf, forget_read? s.obuf, hinput⟩

/-! ## Reset (R227, R270, R271) -/

theorem atReset_resetState (s : State) : AtReset (resetState s) := by
  refine ⟨⟨rfl, rfl, rfl, rfl, rfl, rfl, rfl, rfl, rfl⟩, ⟨rfl, rfl, rfl, rfl, rfl, rfl, rfl, rfl⟩, ?_⟩
  exact ⟨forget_read? s.ibuf, forget_read? s.obuf, forget_read? s.tbuf, forget_read? s.dbuf⟩

theorem resetState_keepsCapacities (s : State) : KeepsCapacities s (resetState s) := ⟨rfl, rfl, rfl⟩

theorem resetState_keepsHostSide (s : State) : KeepsHostSide s (resetState s) := ⟨rfl, rfl, rfl⟩

/-- Settles O15: the command and both events end in `resetState`. -/
theorem everyResetGivesTheResetState : Obligations.EveryResetGivesTheResetState := by
  intro s
  refine ⟨?sreset, fun rest hpending => ?reset, fun rest w hpending => ?resetDuring⟩
  case sreset =>
    exact ⟨_, rfl, atReset_resetState s, resetState_keepsCapacities s, resetState_keepsHostSide s⟩
  case reset =>
    exact ⟨_, step_of_pending hpending, atReset_resetState _,
      resetState_keepsCapacities (takeEvent s rest)⟩
  case resetDuring =>
    exact ⟨_, step_of_pending hpending, atReset_resetState _,
      resetState_keepsCapacities (takeEvent s rest)⟩

/-! ## The first command after reset (R272) -/

/-- Of what a command's rule says about a failure, the report. -/
theorem reportsError_of_rule {i : Instr} {s : State} {code : BitVec 4} {info : Word} {op : BitVec 8}
    {P : State → Prop} (h : ∃ t, exec i s = .next t ∧ ReportsError code info op t ∧ P t) :
    ∃ t, exec i s = .next t ∧ ReportsError code info op t := by
  obtain ⟨t, ht, hreport, -⟩ := h
  exact ⟨t, ht, hreport⟩

/-- With no input the rank order is empty, so ENCODE ends at its RANK (R213). -/
theorem encode_of_empty_input {s : State} (hcaps : CapsInRange s) (h : s.ilen = 0) :
    ∃ t, exec .encode s = .next t ∧ ReportsError 1 0 0x01 t := by
  have hempty : IsRankOrder (inputBytes s) [] := by
    rw [(inputBytes_eq_nil_iff s).mpr h]
    exact ⟨fun _ => .rfl, .nil⟩
  obtain ⟨hnone, -⟩ := encodeReportsItsFailures s [] _ _ hcaps hempty rfl rfl
  exact reportsError_of_rule (hnone rfl)

/-- Settles O16: at reset ILEN is 0 and every valid flag is 0, which is the first case of each command's
rule. -/
theorem firstCommandAfterResetFindsNoInput : Obligations.FirstCommandAfterResetFindsNoInput := by
  obtain ⟨hdecode, -⟩ := decodeReportsItsFailures State.reset
  obtain ⟨hbuild, -⟩ := buildFollowsItsRule State.reset
  obtain ⟨hderive, -⟩ := deriveFollowsItsRule State.reset
  obtain ⟨hpack, -⟩ := packFollowsItsRule State.reset _ rfl
  obtain ⟨hser, -⟩ := serFollowsItsRule State.reset
  obtain ⟨hwalk, -⟩ := walkFollowsItsRule State.reset _ _ rfl
  exact
    ⟨encode_of_empty_input capsInRange_reset rfl, reportsError_of_rule (hdecode (by decide)),
      reportsError_of_rule (hbuild rfl), reportsError_of_rule (hderive rfl),
      reportsError_of_rule (hpack rfl), reportsError_of_rule (hser rfl),
      reportsError_of_rule (hwalk 9 0 (.inl ⟨rfl, rfl, rfl⟩))⟩

end Sys2Proof.Machine
end

section
/-! SUPPORT. The report of an earlier command (60_exceptions.md R249): every stage writes the report without
reading it, and every command but NOP and SRESET begins with a stage. -/
namespace Sys2Proof.Machine

/-- The state with another report in STATUS, ERRCODE and ERRINFO (R34 to R36). -/
def State.withReport (s : State) (done err : Bool) (code : BitVec 4) (info : Word) : State :=
  { s with statusDone := done, statusErr := err, errCode := code, errInfo := info }

/-- No check of a stage looks at the report, and both of its ends overwrite it (R244, R245), so that in each
stage the old one drops out. -/
theorem stage_withReport {op : BitVec 8} {f : State → StageExit} (hf : IsStage op f) (s : State)
    (done err : Bool) (code : BitVec 4) (info : Word) :
    f (s.withReport done err code info) = f s := by
  cases hf <;> rfl

/-- `i` runs a stage, and after its success whatever the command goes on with (R210). -/
def BeginsWithStage (i : Instr) : Prop :=
  ∃ op f g, IsStage op f ∧ ∀ s, exec i s = ((f s).andThen g).outcome

theorem beginsWithStage_of_stage {i : Instr} {op : BitVec 8} {f : State → StageExit} (hf : IsStage op f)
    (hi : ∀ s, exec i s = (f s).outcome) : BeginsWithStage i :=
  ⟨op, f, .success, hf, fun s => by rw [andThen_success_right, hi]⟩

/-- ENCODE begins with CLEAR, which always succeeds (R211). -/
theorem beginsWithStage_encode : BeginsWithStage .encode :=
  ⟨_, _, fun t => ((((rankStage t).andThen buildStage).andThen deriveStage).andThen packStage).andThen
    serStage |>.andThen tobytesStage, .clear, fun _ => rfl⟩

/-- DECODE begins with CLEAR, which always succeeds (R215). -/
theorem beginsWithStage_decode : BeginsWithStage .decode :=
  ⟨_, _, fun t => ((frombytesStage t).andThen deserStage).andThen walkStage, .clear, fun _ => rfl⟩

theorem beginsWithStage_of_ne {i : Instr} (hnop : i ≠ .nop) (hsreset : i ≠ .sreset) :
    BeginsWithStage i := by
  cases i with
  | nop => exact absurd rfl hnop
  | sreset => exact absurd rfl hsreset
  | rank => exact beginsWithStage_of_stage .rank fun _ => rfl
  | build => exact beginsWithStage_of_stage .build fun _ => rfl
  | derive => exact beginsWithStage_of_stage .derive fun _ => rfl
  | pack => exact beginsWithStage_of_stage .pack fun _ => rfl
  | ser => exact beginsWithStage_of_stage .ser fun _ => rfl
  | deser => exact beginsWithStage_of_stage .deser fun _ => rfl
  | tobytes => exact beginsWithStage_of_stage .tobytes fun _ => rfl
  | frombytes => exact beginsWithStage_of_stage .frombytes fun _ => rfl
  | walk => exact beginsWithStage_of_stage .walk fun _ => rfl
  | clear => exact beginsWithStage_of_stage .clear fun _ => rfl
  | encode => exact beginsWithStage_encode
  | decode => exact beginsWithStage_decode

/-- Settles O24: SRESET overwrites the report, and the first stage of every other command does not see it. -/
theorem earlierReportDoesNotAlterACommand : Obligations.EarlierReportDoesNotAlterACommand := by
  intro i s done err code info hnop
  show exec i (s.withReport done err code info) = exec i s
  by_cases hsreset : i = .sreset
  · subst hsreset
    rfl
  · obtain ⟨op, f, g, hf, hexec⟩ := beginsWithStage_of_ne hnop hsreset
    rw [hexec, hexec, stage_withReport hf]

end Sys2Proof.Machine
end

section
/-! SUPPORT. The errors that each command may report (60_exceptions.md R242): the codes of each stage, and
which of its checks always pass inside ENCODE and DECODE. -/
namespace Sys2Proof.Machine

/-- However a stage or a sequence of stages ended, its ERRCODE is one of `codes`. -/
def StageExit.ReportsOneOf (x : StageExit) (codes : List Nat) : Prop := x.state.errCode.toNat ∈ codes

section
variable {x : StageExit} {f : State → StageExit} {codes codes' : List Nat}

theorem succeed_reportsOneOf {s : State} (h : 0 ∈ codes) : (succeed s).ReportsOneOf codes := h

theorem raise_reportsOneOf {e : ErrorKind} {info : Word} {s : State} (h : e.code.toNat ∈ codes) :
    (raise e info s).ReportsOneOf codes := h

theorem StageExit.FailsWith.reportsOneOf {code : BitVec 4} {info : Word} {op : BitVec 8}
    {P : State → Prop} (h : x.FailsWith code info op P) (hcode : code.toNat ∈ codes) :
    x.ReportsOneOf codes := by
  obtain ⟨t, rfl, ⟨-, -, rfl, -⟩, -⟩ := h
  exact hcode

theorem StageExit.ReportsOneOf.mono (h : x.ReportsOneOf codes) (hsub : codes ⊆ codes') :
    x.ReportsOneOf codes' := hsub h

/-- A sequence reports what its first stage does, or after a success of it what its second does (R210). -/
theorem StageExit.ReportsOneOf.andThen (hx : x.ReportsOneOf codes)
    (hf : ∀ t, x = .success t → (f t).ReportsOneOf codes) : (x.andThen f).ReportsOneOf codes := by
  rcases andThen_cases x f with ⟨t, rfl, h⟩ | ⟨t, ht, h⟩ <;> rw [h]
  · exact hx
  · exact hf t ht

theorem andThen_eq_success {t : State} (h : x.andThen f = .success t) :
    ∃ u, x = .success u ∧ f u = .success t := by
  rcases andThen_cases x f with ⟨u, -, hu⟩ | ⟨u, hx, hu⟩ <;> rw [hu] at h
  · cases h
  · exact ⟨u, hx, h⟩

end

/-! ## The codes of each stage -/

theorem rankStage_reports (s : State) : (rankStage s).ReportsOneOf (allowedErrors .rank) := by
  by_cases h : s.ilen = 0
  · rw [rankStage_of_ilen_eq_zero h]
    exact raise_reportsOneOf (by decide)
  · obtain ⟨r, -, hstage⟩ := rankStage_of_ilen_ne_zero h
    rw [hstage]
    exact succeed_reportsOneOf (by decide)

theorem buildStage_reports (s : State) : (buildStage s).ReportsOneOf (allowedErrors .build) := by
  rcases buildStage_cases s with ⟨-, h⟩ | ⟨-, -, h⟩ | ⟨-, -, h⟩ <;> rw [h]
  · exact raise_reportsOneOf (by decide)
  · exact raise_reportsOneOf (by decide)
  · exact succeed_reportsOneOf (by decide)

theorem deriveStage_reports (s : State) : (deriveStage s).ReportsOneOf (allowedErrors .derive) := by
  rcases deriveStage_cases s with ⟨-, h⟩ | ⟨-, _, -, h⟩ | ⟨-, -, h⟩ <;> rw [h]
  · exact raise_reportsOneOf (by decide)
  · exact raise_reportsOneOf (by decide)
  · exact succeed_reportsOneOf (by decide)

/-- PACK with a codeword for every byte of the input fails on the capacity of DBUF only (R155). -/
theorem packStage_reports_of_codeBits_ok {s : State} {bits : Bits} (hv : s.vCw = true)
    (h : codeBits (codeword s) (inputBytes s) = .ok bits) : (packStage s).ReportsOneOf [0, 8] := by
  rw [packStage_of_codeBits_ok hv h]
  split
  · exact raise_reportsOneOf (by decide)
  · exact succeed_reportsOneOf (by decide)

theorem packStage_reports (s : State) : (packStage s).ReportsOneOf (allowedErrors .pack) := by
  cases hv : s.vCw with
  | false =>
    rw [packStage_of_not_vCw hv]
    exact raise_reportsOneOf (by decide)
  | true =>
    cases h : codeBits (codeword s) (inputBytes s) with
    | error i =>
      rw [packStage_of_codeBits_error hv h]
      exact raise_reportsOneOf (by decide)
    | ok bits => exact (packStage_reports_of_codeBits_ok hv h).mono (by decide)

/-- SER of a valid tree fails on the number of its leaves only (R167). -/
theorem serStage_reports_of_vTree {s : State} (hv : s.vTree = true) :
    (serStage s).ReportsOneOf [0, 7] := by
  rcases Nat.lt_or_ge 255 s.tn.toNat with htn | htn
  · rw [serStage_of_tn_gt hv htn]
    exact raise_reportsOneOf (by decide)
  · rw [serStage_of_tn_le hv htn]
    exact succeed_reportsOneOf (by decide)

theorem serStage_reports (s : State) : (serStage s).ReportsOneOf (allowedErrors .ser) := by
  cases hv : s.vTree with
  | false =>
    rw [serStage_of_not_vTree hv]
    exact raise_reportsOneOf (by decide)
  | true => exact (serStage_reports_of_vTree hv).mono (by decide)

/-- TBUF holds the count byte of a tree and all the symbols that it declares (R168). -/
def HoldsWholeTree (s : State) : Prop :=
  ∃ c rest, treeBytes s = c :: rest ∧ 1 + c.toNat ≤ s.tlen.toNat

/-- DESER of a whole tree fails on the number of its symbols only (R171). -/
theorem deserStage_reports_of_wholeTree {s : State} (h : HoldsWholeTree s) :
    (deserStage s).ReportsOneOf [0, 2] := by
  obtain ⟨c, rest, hbytes, hlen⟩ := h
  rcases Nat.lt_or_ge c.toNat 2 with hc | hc
  · rw [deserStage_of_count_lt_two hbytes hlen hc]
    exact raise_reportsOneOf (by decide)
  · rw [deserStage_of_two_le_count hbytes hlen hc]
    exact succeed_reportsOneOf (by decide)

theorem deserStage_reports (s : State) : (deserStage s).ReportsOneOf (allowedErrors .deser) := by
  rcases deserStage_cases s with ⟨_, h⟩ | ⟨_, _, -, -, ⟨-, h⟩ | ⟨-, h⟩⟩ <;> rw [h]
  · exact raise_reportsOneOf (by decide)
  · exact raise_reportsOneOf (by decide)
  · exact succeed_reportsOneOf (by decide)

theorem tobytesStage_reports (s : State) : (tobytesStage s).ReportsOneOf (allowedErrors .tobytes) := by
  rcases tobytesStage_cases s with ⟨-, h⟩ | ⟨-, h⟩ <;> rw [h]
  · exact raise_reportsOneOf (by decide)
  · exact succeed_reportsOneOf (by decide)

/-- All failures of `from_bytes` are of one kind (R184). -/
theorem kind_of_fromBytes_error {buf : Bytes} {f : Failure} (h : fromBytes buf = .error f) :
    f.kind = .malformedContainer := by
  unfold fromBytes at h
  split at h
  · split_ifs at h <;> cases h <;> rfl
  · cases h
    rfl

theorem frombytesStage_reports (s : State) :
    (frombytesStage s).ReportsOneOf (allowedErrors .frombytes) := by
  cases h : fromBytes (inputBytes s) with
  | error f =>
    rw [frombytesStage_of_error h]
    exact raise_reportsOneOf (by rw [kind_of_fromBytes_error h]; decide)
  | ok c =>
    rw [frombytesStage_of_ok h]
    split
    · exact raise_reportsOneOf (by decide)
    · exact succeed_reportsOneOf (by decide)

/-- WALK of a valid tree fails on PAD, on where the walk ends, or on the capacity of OBUF (R198). -/
theorem walkStage_reports_of_vTree {s : State} (hv : s.vTree = true) :
    (walkStage s).ReportsOneOf [0, 4, 5, 8] := by
  rcases Nat.lt_or_ge (8 * s.dlen.toNat) s.pad.toNat with hpad | hpad
  · rw [walkStage_of_pad_gt hv hpad]
    exact raise_reportsOneOf (by decide)
  · rw [walkStage_of_walk hv hpad rfl]
    split_ifs
    · exact raise_reportsOneOf (by decide)
    · exact raise_reportsOneOf (by decide)
    · exact succeed_reportsOneOf (by decide)

theorem walkStage_reports (s : State) : (walkStage s).ReportsOneOf (allowedErrors .walk) := by
  cases hv : s.vTree with
  | false =>
    rw [walkStage_of_not_vTree hv]
    exact raise_reportsOneOf (by decide)
  | true => exact (walkStage_reports_of_vTree hv).mono (by decide)

theorem clearStage_reports (s : State) : (clearStage s).ReportsOneOf (allowedErrors .clear) :=
  succeed_reportsOneOf (by decide)

/-! ## ENCODE (R211, R213) -/

theorem packStage_keeps_vTree {s t : State} (h : packStage s = .success t) : t.vTree = s.vTree := by
  obtain ⟨-, ⟨-, -, hv⟩, -⟩ := packStage_keepsFiles s
  rwa [h] at hv

/-- With two or more distinct byte values the table is made, so that NotReady, DuplicateSymbol and
UnknownSymbol cannot be met. -/
theorem encodeStages_reports_of_two_le {s : State} {r : Bytes} (hrank : IsRankOrder (inputBytes s) r)
    (hr : 2 ≤ r.length) : (encodeStages s).ReportsOneOf (allowedErrors .encode) := by
  obtain ⟨t, ht, -, hderived⟩ := tableStages_derived hrank hr
  have hbits := hderived.codeBits hrank
  obtain ⟨-, ⟨hvt, -⟩, ⟨hvc, -⟩, -⟩ := hderived
  have hpack : (packStage t).ReportsOneOf (allowedErrors .encode) :=
    (packStage_reports_of_codeBits_ok hvc hbits).mono (by decide)
  have hser : ((packStage t).andThen serStage).ReportsOneOf (allowedErrors .encode) :=
    hpack.andThen fun u hu =>
      (serStage_reports_of_vTree ((packStage_keeps_vTree hu).trans hvt)).mono (by decide)
  rw [encodeStages_eq, ht]
  exact hser.andThen fun u _ => (tobytesStage_reports u).mono (by decide)

theorem encodeStages_reports (s : State) : (encodeStages s).ReportsOneOf (allowedErrors .encode) := by
  obtain ⟨r, hrank⟩ := exists_isRankOrder (inputBytes s)
  obtain hr | hr | hr : r.length = 0 ∨ r.length = 1 ∨ 2 ≤ r.length := by omega
  · have hfails := (clearStage_cleared s).andThen_fails fun _ h =>
      rankStage_of_cleared_nil h (hrank.eq_nil hr)
    exact hfails.andThen.andThen.andThen.andThen.andThen.reportsOneOf (by decide)
  · have hfails := (rankStage_after_clear hrank hr.ge).andThen_fails fun _ h =>
      buildStage_of_ranked_one h hr
    exact hfails.andThen.andThen.andThen.andThen.reportsOneOf (by decide)
  · exact encodeStages_reports_of_two_le hrank hr

/-! ## DECODE (R215, R217) -/

/-- What FROMBYTES leaves in TBUF is a whole tree (R183, R185). -/
theorem holdsWholeTree_of_frombytesStage {s t : State} (h : frombytesStage s = .success t) :
    HoldsWholeTree t := by
  rcases frombytesStage_cases s with ⟨f, hfail⟩ | ⟨c, hc, hfits, -⟩
  · cases h.symm.trans hfail
  · obtain ⟨sc, rest, -, hcount, -, htree, -⟩ := fromBytes_ok hc
    obtain ⟨-, ⟨-, hbytes, -, htlen, -⟩, -⟩ := frombytesStage_success hc hfits
    rw [h, htree] at hbytes htlen
    rw [List.length_cons, List.length_take_of_le hcount, Nat.add_comm] at htlen
    exact ⟨sc, _, hbytes, htlen.ge⟩

theorem vTree_of_deserStage {s t : State} (h : deserStage s = .success t) : t.vTree = true := by
  rcases deserStage_cases s with ⟨_, hfail⟩ | ⟨_, _, -, -, ⟨-, hfail⟩ | ⟨-, hsucceeds⟩⟩
  · cases h.symm.trans hfail
  · cases h.symm.trans hfail
  · cases h.symm.trans hsucceeds
    rfl

/-- FROMBYTES leaves a whole tree and DESER a valid one, so that MalformedTree and NotReady cannot be
met. -/
theorem decodeStages_reports (s : State) : (decodeStages s).ReportsOneOf (allowedErrors .decode) := by
  have hclear : (clearStage s).ReportsOneOf (allowedErrors .decode) :=
    (clearStage_reports s).mono (by decide)
  refine ((hclear.andThen fun t _ => ?frombytes).andThen fun t ht => ?deser).andThen fun t ht => ?walk
  case frombytes => exact (frombytesStage_reports t).mono (by decide)
  case deser =>
    obtain ⟨u, -, hu⟩ := andThen_eq_success ht
    exact (deserStage_reports_of_wholeTree (holdsWholeTree_of_frombytesStage hu)).mono (by decide)
  case walk =>
    obtain ⟨u, -, hu⟩ := andThen_eq_success ht
    exact (walkStage_reports_of_vTree (vTree_of_deserStage hu)).mono (by decide)

/-! ## Every command (R242) -/

theorem errCode_of_exec {i : Instr} {s t : State} (hi : i ≠ .nop) (h : exec i s = .next t) :
    t.errCode.toNat ∈ allowedErrors i := by
  cases i <;> cases h
  case nop => exact absurd rfl hi
  case rank => exact rankStage_reports s
  case build => exact buildStage_reports s
  case derive => exact deriveStage_reports s
  case pack => exact packStage_reports s
  case ser => exact serStage_reports s
  case deser => exact deserStage_reports s
  case tobytes => exact tobytesStage_reports s
  case frombytes => exact frombytesStage_reports s
  case walk => exact walkStage_reports s
  case encode => exact encodeStages_reports s
  case decode => exact decodeStages_reports s
  case clear => exact clearStage_reports s
  case sreset => exact List.mem_singleton_self 0

/-- Settles O25: NOP answers the same state, and the codes of every other command are those of the checks
that can fail in it. -/
theorem eachCommandRaisesOnlyItsKinds : Obligations.EachCommandRaisesOnlyItsKinds := by
  intro i s t h
  refine ⟨?_, fun hi => errCode_of_exec hi h⟩
  rintro rfl
  cases h
  exact ⟨rfl, rfl, rfl, rfl, rfl⟩

end Sys2Proof.Machine
end
